-- ==== Sys2Proof/Word.lean ====
section
/-! DEFINITION. The word types of the machine (spec 00_scope.md R4, R6): every quantity the spec
gives a fixed number of bits is a bit vector of that width. -/

namespace Sys2Proof

/-- A data byte: file registers, W and 8-bit literals (R4, "Data width"). -/
abbrev Byte := BitVec 8

/-- A code address, the width of PC (R4, "PC width"; 10_state.md R11). -/
abbrev Pc := BitVec 13

/-- One instruction word (R4, "Instruction width"; 30_encoding.md R60). -/
abbrev CodeWord := BitVec 14

/-- A data address (R4, "Data address width"; 20_memory.md R41). -/
abbrev DataAddr := BitVec 9

/-- The `f` field, an offset inside a bank (20_memory.md R42). -/
abbrev FileField := BitVec 7

/-- The `b` field, a bit number 0 to 7 (30_encoding.md R62). -/
abbrev BitNum := BitVec 3

/-- The literal of CALL and GOTO (30_encoding.md R63). -/
abbrev PageAddr := BitVec 11

end Sys2Proof
end

