-- ==== Sys2Proof/Config.lean ====
section
/-! DEFINITION. The configuration: the parameters spec 00_scope.md R4 leaves OPEN (92_eei_decisions.md,
"Open parameters in one place"), and the free values, constants without a body that stand for the
values the spec leaves unknown. The configuration is plain data; State carries it (log 1). -/

namespace Sys2Proof

/-- `STACK_POLICY` (10_state.md R22, R23; decision D6). -/
inductive StackPolicy where
  /-- A ninth push and a pop of an empty stack stop the run with a model-only fault. -/
  | fault
  /-- A circular buffer of eight slots with a 3-bit pointer. -/
  | wrap
deriving DecidableEq, Repr

/-- What a run of data addresses holds. The numbers name the first cell or device register. -/
inductive FileKind where
  | ram (firstCell : Nat)
  | device (firstReg : Nat)
  | unimplemented
deriving DecidableEq, Repr

/-- `size` data addresses from `first` on: address `first + i` is cell or device register number
`i` counted from the kind's own number. Two regions that name the same cells alias (10_state.md R26). -/
structure FileRegion where
  first : Nat
  size : Nat
  kind : FileKind
deriving DecidableEq, Repr

/-- What `FileMap` says of one data address (00_scope.md R4, 20_memory.md R44). -/
inductive FileEntry where
  | ram (cell : Nat)
  | device (reg : Nat)
  | unimplemented
deriving DecidableEq, Repr

/-- The OPEN parameters. `ADDR_STATUS` is not among them: the source fixes it (`statusOffset`). -/
structure Config where
  addrIndf : FileField
  addrPcl : FileField
  addrFsr : FileField
  addrPclath : FileField
  addrIntcon : FileField
  /-- `FileMap` as a list of regions: the first region that holds the address says what is there,
  an address in no region is unimplemented (log 20). -/
  fileMap : List FileRegion
  stackPolicy : StackPolicy
  wdtEnabled : Bool
  erasedWord : CodeWord
deriving DecidableEq, Repr

/-- `ADDR_STATUS`, 03h in every bank (00_scope.md R4). -/
def statusOffset : FileField := 0x03#7

/-- The defaults of 92_eei_decisions.md: D1 (addresses), D2 (bank 0 offsets 0Ch to 7Fh are 116
distinct RAM cells, nothing else), D6, D10, D16. PRESUMED, log 2. -/
def Config.default : Config where
  addrIndf := 0x00#7
  addrPcl := 0x02#7
  addrFsr := 0x04#7
  addrPclath := 0x0A#7
  addrIntcon := 0x0B#7
  fileMap := [⟨0x0C, 116, .ram 0x0C⟩]
  stackPolicy := .fault
  wdtEnabled := false
  erasedWord := 0x3FFF#14

/-- The free bytes: draw number `n` (93_implementation_defined.md, "any value"; log 7). -/
opaque Config.freeByte : Nat → Byte

/-- The free bits: draw number `n` (log 7). -/
opaque Config.freeBit : Nat → Bool

/-- The free code addresses: draw number `n` (10_state.md R23; log 7). -/
opaque Config.freePc : Nat → Pc

/-- What RAM cell `cell` holds after power-up number `epoch`, before any write reaches it: unknown
(10_state.md R30, U5 "any value ... fixed at the moment of the read or at reset"; log 6). -/
opaque Config.unwrittenRam : (epoch cell : Nat) → Byte

end Sys2Proof
end

