-- ==== Sys2Proof/Syntax.lean ====
section
/-! DEFINITION. The instructions: one constructor for each of the 35 rows of spec/opcode_table.json
(30_encoding.md R64). The fields are the operand fields of R65 at their own widths; don't-care bits
(R67) are no operands. -/

namespace Sys2Proof

/-- The destination select bit `d` (30_encoding.md R61): W or the file register f. -/
inductive Dest where
  | w
  | f
deriving DecidableEq, Repr

inductive Instr where
  -- byte-oriented file register operations (R61)
  | addwf (f : FileField) (d : Dest)
  | andwf (f : FileField) (d : Dest)
  | clrf (f : FileField)
  | clrw
  | comf (f : FileField) (d : Dest)
  | decf (f : FileField) (d : Dest)
  | decfsz (f : FileField) (d : Dest)
  | incf (f : FileField) (d : Dest)
  | incfsz (f : FileField) (d : Dest)
  | iorwf (f : FileField) (d : Dest)
  | movf (f : FileField) (d : Dest)
  | movwf (f : FileField)
  | nop
  | rlf (f : FileField) (d : Dest)
  | rrf (f : FileField) (d : Dest)
  | subwf (f : FileField) (d : Dest)
  | swapf (f : FileField) (d : Dest)
  | xorwf (f : FileField) (d : Dest)
  -- bit-oriented file register operations (R62)
  | bcf (f : FileField) (b : BitNum)
  | bsf (f : FileField) (b : BitNum)
  | btfsc (f : FileField) (b : BitNum)
  | btfss (f : FileField) (b : BitNum)
  -- literal and control operations (R63)
  | addlw (k : Byte)
  | andlw (k : Byte)
  | call (k : PageAddr)
  | clrwdt
  | goto (k : PageAddr)
  | iorlw (k : Byte)
  | movlw (k : Byte)
  | retfie
  | retlw (k : Byte)
  | ret
  | sleep
  | sublw (k : Byte)
  | xorlw (k : Byte)
deriving DecidableEq, Repr

/-- The mnemonic of the opcode table. -/
def Instr.mnemonic : Instr → String
  | .addwf _ _ => "ADDWF"
  | .andwf _ _ => "ANDWF"
  | .clrf _ => "CLRF"
  | .clrw => "CLRW"
  | .comf _ _ => "COMF"
  | .decf _ _ => "DECF"
  | .decfsz _ _ => "DECFSZ"
  | .incf _ _ => "INCF"
  | .incfsz _ _ => "INCFSZ"
  | .iorwf _ _ => "IORWF"
  | .movf _ _ => "MOVF"
  | .movwf _ => "MOVWF"
  | .nop => "NOP"
  | .rlf _ _ => "RLF"
  | .rrf _ _ => "RRF"
  | .subwf _ _ => "SUBWF"
  | .swapf _ _ => "SWAPF"
  | .xorwf _ _ => "XORWF"
  | .bcf _ _ => "BCF"
  | .bsf _ _ => "BSF"
  | .btfsc _ _ => "BTFSC"
  | .btfss _ _ => "BTFSS"
  | .addlw _ => "ADDLW"
  | .andlw _ => "ANDLW"
  | .call _ => "CALL"
  | .clrwdt => "CLRWDT"
  | .goto _ => "GOTO"
  | .iorlw _ => "IORLW"
  | .movlw _ => "MOVLW"
  | .retfie => "RETFIE"
  | .retlw _ => "RETLW"
  | .ret => "RETURN"
  | .sleep => "SLEEP"
  | .sublw _ => "SUBLW"
  | .xorlw _ => "XORLW"

end Sys2Proof
end

