-- ==== Sys2Proof/WellFormed.lean ====
section
/-! DEFINITION. Well-formedness. Every operand of `Instr` is a bit vector of its field's width
(30_encoding.md R65), so an instruction with an operand out of range cannot be written down and
`Instr` needs no check of its own: all instructions are well-formed. What can be ill-formed is a
configuration (92_eei_decisions.md, "Open parameters in one place"). -/

namespace Sys2Proof

/-- The offsets of the core registers, STATUS among them. -/
def Config.coreOffsets (c : Config) : List FileField :=
  [c.addrIndf, c.addrPcl, statusOffset, c.addrFsr, c.addrPclath, c.addrIntcon]

/-- "7-bit offsets, pairwise distinct and distinct from 03h". -/
def Config.offsetsDistinct (c : Config) : Bool :=
  decide c.coreOffsets.Nodup

/-- Every region of the file map lies inside the 512 data addresses (20_memory.md R41). -/
def Config.regionsInside (c : Config) : Bool :=
  c.fileMap.all fun r => decide (r.first + r.size ≤ 512)

/-- A configuration the spec admits. -/
def Config.wf (c : Config) : Bool :=
  c.offsetsDistinct && c.regionsInside

end Sys2Proof
end

