-- ==== Sys2Proof/Decode.lean ====
section
/-! DEFINITION. Decoding (the tree of 30_encoding.md R66, with the IR[6:5] conditions of conflict C2),
encoding (the patterns of R64, don't-care bits 0 as R67 says), and the opcode table of R64 as mask and
match rows. `decode` is total on the 14-bit words; the 376 unassigned words of R68 are rejected by name. -/

namespace Sys2Proof

/-- Why a word is no instruction (R68): the two places of the unassigned words. -/
inductive DecodeReject where
  /-- `00 0000 0xxx xxxx` other than NOP, RETURN, RETFIE, SLEEP, CLRWDT; the low seven bits are kept. -/
  | unassignedControl (low : BitVec 7)
  /-- `11 1011 kkkk kkkk`; the low eight bits are kept. -/
  | unassignedLiteral (low : Byte)
deriving DecidableEq, Repr

/-! ## Fields (R65) -/

/-- `f = ir[6:0]`. -/
def fieldF (ir : CodeWord) : FileField := ir.extractLsb' 0 7

/-- `d = ir[7]`: 0 for W, 1 for f. -/
def fieldD (ir : CodeWord) : Dest := if ir.getLsbD 7 then .f else .w

/-- `b = ir[9:7]`. -/
def fieldB (ir : CodeWord) : BitNum := ir.extractLsb' 7 3

/-- `k8 = ir[7:0]`. -/
def fieldK8 (ir : CodeWord) : Byte := ir.extractLsb' 0 8

/-- `k11 = ir[10:0]`. -/
def fieldK11 (ir : CodeWord) : PageAddr := ir.extractLsb' 0 11

/-! ## The decode tree (R66) -/

/-- GRP0 under IR[11:8] = 0000 with IR[7] = 0: the five constants of R64, NOP with its two free bits. -/
def decodeConstant (ir : CodeWord) : Except DecodeReject Instr :=
  match (fieldF ir).toNat with
  | 0x00 => .ok .nop
  | 0x20 => .ok .nop
  | 0x40 => .ok .nop
  | 0x60 => .ok .nop
  | 0x08 => .ok .ret
  | 0x09 => .ok .retfie
  | 0x63 => .ok .sleep
  | 0x64 => .ok .clrwdt
  | _ => .error (.unassignedControl (fieldF ir))

/-- GRP0, IR[13:12] = 00, by IR[11:8]. -/
def decodeByteOriented (ir : CodeWord) : Except DecodeReject Instr :=
  match (ir.extractLsb' 8 4).toNat with
  | 0b1111 => .ok (.incfsz (fieldF ir) (fieldD ir))
  | 0b1110 => .ok (.swapf (fieldF ir) (fieldD ir))
  | 0b1101 => .ok (.rlf (fieldF ir) (fieldD ir))
  | 0b1100 => .ok (.rrf (fieldF ir) (fieldD ir))
  | 0b1011 => .ok (.decfsz (fieldF ir) (fieldD ir))
  | 0b1010 => .ok (.incf (fieldF ir) (fieldD ir))
  | 0b1001 => .ok (.comf (fieldF ir) (fieldD ir))
  | 0b1000 => .ok (.movf (fieldF ir) (fieldD ir))
  | 0b0111 => .ok (.addwf (fieldF ir) (fieldD ir))
  | 0b0110 => .ok (.xorwf (fieldF ir) (fieldD ir))
  | 0b0101 => .ok (.andwf (fieldF ir) (fieldD ir))
  | 0b0100 => .ok (.iorwf (fieldF ir) (fieldD ir))
  | 0b0011 => .ok (.decf (fieldF ir) (fieldD ir))
  | 0b0010 => .ok (.subwf (fieldF ir) (fieldD ir))
  | 0b0001 => if ir.getLsbD 7 then .ok (.clrf (fieldF ir)) else .ok .clrw
  | _ => if ir.getLsbD 7 then .ok (.movwf (fieldF ir)) else decodeConstant ir

/-- GRP1, IR[13:12] = 01, by IR[11:10]. -/
def decodeBitOriented (ir : CodeWord) : Instr :=
  match (ir.extractLsb' 10 2).toNat with
  | 0b00 => .bcf (fieldF ir) (fieldB ir)
  | 0b01 => .bsf (fieldF ir) (fieldB ir)
  | 0b10 => .btfsc (fieldF ir) (fieldB ir)
  | _ => .btfss (fieldF ir) (fieldB ir)

/-- GRP2, IR[13:12] = 10, by IR[11]. -/
def decodeJump (ir : CodeWord) : Instr :=
  if ir.getLsbD 11 then .goto (fieldK11 ir) else .call (fieldK11 ir)

/-- GRP3, IR[13:12] = 11, by IR[11:8]. -/
def decodeLiteral (ir : CodeWord) : Except DecodeReject Instr :=
  match (ir.extractLsb' 8 4).toNat with
  | 0b1111 => .ok (.addlw (fieldK8 ir))
  | 0b1110 => .ok (.addlw (fieldK8 ir))
  | 0b1101 => .ok (.sublw (fieldK8 ir))
  | 0b1100 => .ok (.sublw (fieldK8 ir))
  | 0b1011 => .error (.unassignedLiteral (fieldK8 ir))
  | 0b1010 => .ok (.xorlw (fieldK8 ir))
  | 0b1001 => .ok (.andlw (fieldK8 ir))
  | 0b1000 => .ok (.iorlw (fieldK8 ir))
  | 0b0111 => .ok (.retlw (fieldK8 ir))
  | 0b0110 => .ok (.retlw (fieldK8 ir))
  | 0b0101 => .ok (.retlw (fieldK8 ir))
  | 0b0100 => .ok (.retlw (fieldK8 ir))
  | _ => .ok (.movlw (fieldK8 ir))

/-- The decoder (R66). -/
def decode (ir : CodeWord) : Except DecodeReject Instr :=
  match (ir.extractLsb' 12 2).toNat with
  | 0b00 => decodeByteOriented ir
  | 0b01 => .ok (decodeBitOriented ir)
  | 0b10 => .ok (decodeJump ir)
  | _ => decodeLiteral ir

/-- The instruction read from a word whose bits are numbered as spec/opcode_table.json numbers them.
The word is 14 bits of the code space (R60); a number with a bit above bit 13 is no instruction word
(log 18). -/
def decodeTableWord (nbits w : Nat) : Option Instr :=
  let v := w % 2 ^ nbits
  if v < 2 ^ 14 then
    match decode (BitVec.ofNat 14 v) with
    | .ok i => some i
    | .error _ => none
  else none

/-! ## The encoder (R64, R67) -/

/-- The bit `d` of the byte-oriented format. -/
def Dest.bit : Dest → BitVec 1
  | .w => 0#1
  | .f => 1#1

/-- The word of an instruction: the patterns of R64, every `x` bit 0 (R67). -/
def encode : Instr → CodeWord
  | .addwf f d => 0b000111#6 ++ d.bit ++ f
  | .andwf f d => 0b000101#6 ++ d.bit ++ f
  | .clrf f => 0b0000011#7 ++ f
  | .clrw => 0b00000100000000#14
  | .comf f d => 0b001001#6 ++ d.bit ++ f
  | .decf f d => 0b000011#6 ++ d.bit ++ f
  | .decfsz f d => 0b001011#6 ++ d.bit ++ f
  | .incf f d => 0b001010#6 ++ d.bit ++ f
  | .incfsz f d => 0b001111#6 ++ d.bit ++ f
  | .iorwf f d => 0b000100#6 ++ d.bit ++ f
  | .movf f d => 0b001000#6 ++ d.bit ++ f
  | .movwf f => 0b0000001#7 ++ f
  | .nop => 0b00000000000000#14
  | .rlf f d => 0b001101#6 ++ d.bit ++ f
  | .rrf f d => 0b001100#6 ++ d.bit ++ f
  | .subwf f d => 0b000010#6 ++ d.bit ++ f
  | .swapf f d => 0b001110#6 ++ d.bit ++ f
  | .xorwf f d => 0b000110#6 ++ d.bit ++ f
  | .bcf f b => 0b0100#4 ++ b ++ f
  | .bsf f b => 0b0101#4 ++ b ++ f
  | .btfsc f b => 0b0110#4 ++ b ++ f
  | .btfss f b => 0b0111#4 ++ b ++ f
  | .addlw k => 0b111110#6 ++ k
  | .andlw k => 0b111001#6 ++ k
  | .call k => 0b100#3 ++ k
  | .clrwdt => 0b00000001100100#14
  | .goto k => 0b101#3 ++ k
  | .iorlw k => 0b111000#6 ++ k
  | .movlw k => 0b110000#6 ++ k
  | .retfie => 0b00000000001001#14
  | .retlw k => 0b110100#6 ++ k
  | .ret => 0b00000000001000#14
  | .sleep => 0b00000001100011#14
  | .sublw k => 0b111100#6 ++ k
  | .xorlw k => 0b111010#6 ++ k

/-! ## The opcode table (R64): a word is the instruction when `w & mask == match` -/

/-- One row of R64: `mask` and `pattern` (the spec's `match`). -/
structure OpcodeRow where
  pattern : CodeWord
  mask : CodeWord
deriving DecidableEq, Repr

/-- A word belongs to a row (R64). -/
def OpcodeRow.holds (r : OpcodeRow) (w : CodeWord) : Bool :=
  w &&& r.mask == r.pattern

/-- The row of each instruction. -/
def Instr.row : Instr → OpcodeRow
  | .addwf _ _ => ⟨0x0700#14, 0x3F00#14⟩
  | .andwf _ _ => ⟨0x0500#14, 0x3F00#14⟩
  | .clrf _ => ⟨0x0180#14, 0x3F80#14⟩
  | .clrw => ⟨0x0100#14, 0x3F80#14⟩
  | .comf _ _ => ⟨0x0900#14, 0x3F00#14⟩
  | .decf _ _ => ⟨0x0300#14, 0x3F00#14⟩
  | .decfsz _ _ => ⟨0x0B00#14, 0x3F00#14⟩
  | .incf _ _ => ⟨0x0A00#14, 0x3F00#14⟩
  | .incfsz _ _ => ⟨0x0F00#14, 0x3F00#14⟩
  | .iorwf _ _ => ⟨0x0400#14, 0x3F00#14⟩
  | .movf _ _ => ⟨0x0800#14, 0x3F00#14⟩
  | .movwf _ => ⟨0x0080#14, 0x3F80#14⟩
  | .nop => ⟨0x0000#14, 0x3F9F#14⟩
  | .rlf _ _ => ⟨0x0D00#14, 0x3F00#14⟩
  | .rrf _ _ => ⟨0x0C00#14, 0x3F00#14⟩
  | .subwf _ _ => ⟨0x0200#14, 0x3F00#14⟩
  | .swapf _ _ => ⟨0x0E00#14, 0x3F00#14⟩
  | .xorwf _ _ => ⟨0x0600#14, 0x3F00#14⟩
  | .bcf _ _ => ⟨0x1000#14, 0x3C00#14⟩
  | .bsf _ _ => ⟨0x1400#14, 0x3C00#14⟩
  | .btfsc _ _ => ⟨0x1800#14, 0x3C00#14⟩
  | .btfss _ _ => ⟨0x1C00#14, 0x3C00#14⟩
  | .addlw _ => ⟨0x3E00#14, 0x3E00#14⟩
  | .andlw _ => ⟨0x3900#14, 0x3F00#14⟩
  | .call _ => ⟨0x2000#14, 0x3800#14⟩
  | .clrwdt => ⟨0x0064#14, 0x3FFF#14⟩
  | .goto _ => ⟨0x2800#14, 0x3800#14⟩
  | .iorlw _ => ⟨0x3800#14, 0x3F00#14⟩
  | .movlw _ => ⟨0x3000#14, 0x3C00#14⟩
  | .retfie => ⟨0x0009#14, 0x3FFF#14⟩
  | .retlw _ => ⟨0x3400#14, 0x3C00#14⟩
  | .ret => ⟨0x0008#14, 0x3FFF#14⟩
  | .sleep => ⟨0x0063#14, 0x3FFF#14⟩
  | .sublw _ => ⟨0x3C00#14, 0x3E00#14⟩
  | .xorlw _ => ⟨0x3A00#14, 0x3F00#14⟩

end Sys2Proof
end

