-- ==== Sys2Proof/Machine/State.lean ====
section
/-! DEFINITION. The state of the machine (10_state.md, the state tuple and R10 to R30), its faults and
its reset value. Plain data throughout. Status bits stay in one byte, read and written through the
accessors of Machine/Flags.lean. -/

namespace Sys2Proof.Machine

/-- The RAM cells some write has reached (R26), addresses strictly rising. A cell that is not listed
holds no value the model knows (log 6). -/
abbrev Memory := List Host.Cell

/-- The code words that differ from `ERASED_WORD` (R27), addresses strictly rising. -/
abbrev CodeImage := List (Nat × CodeWord)

/-- The return stack under `STACK_POLICY = wrap` (R23): eight slots, each with a value or none, and a
3-bit pointer to the slot the next push fills. -/
structure Ring where
  slots : Vector (Option Pc) 8
  ptr : BitVec 3
deriving DecidableEq, Repr

/-- No slot holds a value, the pointer is 0 (92_eei_decisions.md D7). -/
def Ring.empty : Ring := ⟨Vector.replicate 8 none, 0#3⟩

/-- One access the platform sees at a device register (20_memory.md R44, R45; log 8). -/
inductive DeviceAccess where
  | read (reg : Nat) (answer : Byte)
  | write (reg : Nat) (value : Byte)
deriving DecidableEq, Repr

/-- The four flag and enable pairs behind the request line (60_exceptions.md R161). -/
structure IrqSources where
  t0if : Bool
  t0ie : Bool
  intf : Bool
  inte : Bool
  rbif : Bool
  rbie : Bool
  eeif : Bool
  eeie : Bool
deriving DecidableEq, Repr

/-- What the environment may do between two CPU steps (00_scope.md R5; log 9). -/
inductive EnvEvent where
  /-- The request line takes a level. -/
  | irqLine (level : Bool)
  /-- The request line takes the level its sources give (60_exceptions.md R161; log 10). -/
  | irqSources (q : IrqSources)
  /-- The watchdog times out (60_exceptions.md R172). -/
  | watchdogTimeout
  /-- A reset from outside (70_reset_and_hazards.md R180). -/
  | externalReset
  /-- The device is powered again (70_reset_and_hazards.md R180; log 12). -/
  | powerUp
deriving DecidableEq, Repr

/-- Who moves next. -/
inductive Turn where
  | cpu
  | environment (e : EnvEvent)
deriving DecidableEq, Repr

structure State where
  /-- W (R10). -/
  w : Byte
  /-- PC (R11): while an instruction executes, already the address after it. -/
  pc : Pc
  /-- STATUS, `IRP RP1 RP0 TO PD Z DC C` from bit 7 down (R15). -/
  status : Byte
  /-- PCLATH<4:0> (R14). -/
  pclath : BitVec 5
  /-- INTCON, bit 7 is GIE (R24). -/
  intcon : Byte
  /-- FSR, the indirect pointer (R25). -/
  fsr : Byte
  /-- The return stack under `STACK_POLICY = fault`, newest first (R22). -/
  stack : List Pc
  /-- The return stack under `STACK_POLICY = wrap` (R23). -/
  ring : Ring
  /-- The RAM cells (R26). -/
  data : Memory
  /-- The code image (R27). -/
  code : CodeImage
  /-- Standby (R28). -/
  asleep : Bool
  /-- The watchdog's count (R28): CPU steps since CLRWDT, SLEEP or reset (log 13). -/
  wdt : Nat
  /-- The level of the request line IRQ (R28). -/
  irq : Bool
  /-- The configuration, fixed for the machine (00_scope.md R4; log 1). -/
  cfg : Config
  /-- The model's own: what happens next between and around CPU steps; after its end the CPU alone
  moves (log 9). -/
  env : List Turn
  /-- The model's own: how many free values have been drawn (log 7). -/
  draws : Nat
  /-- The model's own: how many power-ups since the reset state (log 12). -/
  powerUps : Nat
  /-- The model's own: the device accesses so far, newest first (log 8). -/
  deviceLog : List DeviceAccess
deriving DecidableEq, Repr

/-- The model-only faults of 60_exceptions.md R166. None is a hardware event. -/
inductive Fault where
  /-- Raised by the fetch of one of the 376 unassigned words (30_encoding.md R68, decision D5).
  Safe: the chip does something the spec does not say, the model stops. -/
  | reservedInstruction (pc0 : Pc) (ir : CodeWord)
  /-- Raised by `push`, from CALL and interrupt entry, on a full stack under `STACK_POLICY = fault`
  (10_state.md R22, decision D6). Safe: the model stops. -/
  | stackOverflow (v : Pc)
  /-- Raised by `pop`, from RETURN, RETLW and RETFIE, on an empty stack under `STACK_POLICY = fault`
  (10_state.md R23, decision D6). Safe: the model stops. -/
  | stackUnderflow
  /-- Raised by a data read or write at an address `FileMap` calls unimplemented (20_memory.md R44,
  R45, decision D2). Safe: the model stops. -/
  | unmappedFile (a : DataAddr)
deriving DecidableEq, Repr

/-- Reasons to refuse. Every instruction of the table has its meaning, so nothing is refused. -/
inductive Refusal where
  /-- Raised by an arm of `exec` whose instruction has no meaning yet; there is none. Safe. -/
  | notModelled (mnemonic : String)
deriving DecidableEq, Repr

/-- The machine after power-up (R30) with nothing placed in memory and the default configuration.
The spec gives PC, IRP, RP1, RP0, TO, PD, PCLATH, GIE, the stack, `asleep` and the watchdog count; W,
FSR, Z, DC, C and INTCON[6:0] are named values (DESIGN CHOICE, logs 3 and 4), and so are the model's
own fields (logs 7 to 9). -/
def State.reset : State where
  w := 0x00#8
  pc := 0x0000#13
  status := 0x18#8
  pclath := 0x00#5
  intcon := 0x00#8
  fsr := 0x00#8
  stack := []
  ring := Ring.empty
  data := []
  code := []
  asleep := false
  wdt := 0
  irq := false
  cfg := Config.default
  env := []
  draws := 0
  powerUps := 0
  deviceLog := []

end Sys2Proof.Machine
end

