-- ==== Sys2Proof/Machine/Fields.lean ====
section
/-! DEFINITION. One named update for each field of State. `cfg` has none: no step changes the
configuration. Laws/State.lean says what each update does to each field. -/

namespace Sys2Proof.Machine

def State.setW (s : State) (v : Byte) : State := { s with w := v }

def State.setPc (s : State) (v : Pc) : State := { s with pc := v }

def State.setStatus (s : State) (v : Byte) : State := { s with status := v }

def State.setPclath (s : State) (v : BitVec 5) : State := { s with pclath := v }

def State.setIntcon (s : State) (v : Byte) : State := { s with intcon := v }

def State.setFsr (s : State) (v : Byte) : State := { s with fsr := v }

def State.setStack (s : State) (v : List Pc) : State := { s with stack := v }

def State.setRing (s : State) (v : Ring) : State := { s with ring := v }

def State.setData (s : State) (v : Memory) : State := { s with data := v }

def State.setCode (s : State) (v : CodeImage) : State := { s with code := v }

def State.setAsleep (s : State) (v : Bool) : State := { s with asleep := v }

def State.setWdt (s : State) (v : Nat) : State := { s with wdt := v }

def State.setIrq (s : State) (v : Bool) : State := { s with irq := v }

def State.setEnv (s : State) (v : List Turn) : State := { s with env := v }

def State.setDraws (s : State) (v : Nat) : State := { s with draws := v }

def State.setPowerUps (s : State) (v : Nat) : State := { s with powerUps := v }

def State.setDeviceLog (s : State) (v : List DeviceAccess) : State := { s with deviceLog := v }

end Sys2Proof.Machine
end

