-- ==== Sys2Proof/Machine/Memory.lean ====
section
/-! DEFINITION. The two memories as lists of (address, value) pairs with strictly rising addresses:
RAM cells (10_state.md R26), where an unlisted cell has no value, and code words (R27), where an
unlisted word is `ERASED_WORD` and no listed word equals it. -/

namespace Sys2Proof.Machine

/-- The value listed at an address. -/
def pairsGet {α : Type} : List (Nat × α) → Nat → Option α
  | [], _ => none
  | (a, v) :: m, k => if a = k then some v else pairsGet m k

/-- The list with `v` at address `k`, in the order of addresses. -/
def pairsPut {α : Type} : List (Nat × α) → Nat → α → List (Nat × α)
  | [], k, v => [(k, v)]
  | (a, u) :: m, k, v =>
    if k < a then (k, v) :: (a, u) :: m
    else if k = a then (k, v) :: m
    else (a, u) :: pairsPut m k v

/-- The list without address `k`. -/
def pairsErase {α : Type} (m : List (Nat × α)) (k : Nat) : List (Nat × α) :=
  m.filter fun c => c.1 != k

/-- Addresses rise strictly. -/
def pairsRising {α : Type} (m : List (Nat × α)) : Bool :=
  decide (m.Pairwise fun x y => x.1 < y.1)

/-- The byte some write left in a cell; none where no write has reached it. -/
def Memory.read (m : Memory) (cell : Nat) : Option Byte := pairsGet m cell

def Memory.write (m : Memory) (cell : Nat) (v : Byte) : Memory := pairsPut m cell v

/-- The canonical form: addresses strictly rising. An unlisted cell has no value, so no listed entry
can equal it. -/
def Memory.wf (m : Memory) : Bool := pairsRising m

/-- The word at a code address; `erased` where no program placed one (R27). -/
def CodeImage.read (erased : CodeWord) (m : CodeImage) (a : Nat) : CodeWord :=
  (pairsGet m a).getD erased

/-- The image with word `v` at address `a`; a word equal to `erased` is not listed. -/
def CodeImage.write (erased : CodeWord) (m : CodeImage) (a : Nat) (v : CodeWord) : CodeImage :=
  if v = erased then pairsErase m a else pairsPut m a v

/-- The canonical form: addresses strictly rising and below 8192 (20_memory.md R40), no listed word
equal to `erased`. -/
def CodeImage.wf (erased : CodeWord) (m : CodeImage) : Bool :=
  pairsRising m && m.all fun c => decide (c.1 < 8192) && c.2 != erased

/-- What RAM cell `cell` reads as: the last byte written; before any write, an unknown byte that
stays the same until the next power-up (10_state.md R26, R30; 93_implementation_defined.md U5; log 6). -/
def State.ramByte (s : State) (cell : Nat) : Byte :=
  (s.data.read cell).getD (Config.unwrittenRam s.powerUps cell)

/-- A byte written to a RAM cell. -/
def State.writeRam (s : State) (cell : Nat) (v : Byte) : State :=
  s.setData (s.data.write cell v)

/-- `ProgRead(a)` (20_memory.md R40). -/
def State.progRead (s : State) (a : Pc) : CodeWord :=
  CodeImage.read s.cfg.erasedWord s.code a.toNat

/-- A word placed in the code image from outside the machine (10_state.md R27; log 19). -/
def State.placeCode (s : State) (a : Pc) (v : CodeWord) : State :=
  s.setCode (CodeImage.write s.cfg.erasedWord s.code a.toNat v)

end Sys2Proof.Machine
end

