-- ==== Sys2Proof/Machine/Flags.lean ====
section
/-! DEFINITION. Single bits of a register byte, the carries, and the named bits of STATUS and INTCON
(10_state.md R15 to R21, R24; 00_scope.md R7). -/

namespace Sys2Proof.Machine

/-- Bit `i` of a byte made `b`. -/
def setBit (v : Byte) (i : Nat) (b : Bool) : Byte :=
  if b then v ||| (1#8 <<< i) else v &&& ~~~(1#8 <<< i)

/-- `carry8(a, b, cin)`: bit 8 of the 9-bit sum (00_scope.md R7). -/
def carry8 (a b : Byte) (cin : Bool) : Bool :=
  (a.setWidth 9 + b.setWidth 9 + (BitVec.ofBool cin).setWidth 9).getLsbD 8

/-- `carry4(a, b, cin)`: bit 4 of the 5-bit sum of the low nibbles (00_scope.md R7). -/
def carry4 (a b : Byte) (cin : Bool) : Bool :=
  ((a.extractLsb' 0 4).setWidth 5 + (b.extractLsb' 0 4).setWidth 5 + (BitVec.ofBool cin).setWidth 5).getLsbD 4

/-- The low eight bits of the sum that the carries belong to (41_byte_oriented.md R103, R118). -/
def sum8 (a b : Byte) (cin : Bool) : Byte :=
  a + b + (BitVec.ofBool cin).setWidth 8

/-! ## STATUS (R15) -/

/-- RP1:RP0, bits 6:5. -/
def State.rp (s : State) : BitVec 2 := s.status.extractLsb' 5 2

/-- IRP, bit 7. -/
def State.irp (s : State) : BitVec 1 := s.status.extractLsb' 7 1

/-- TO, bit 4. -/
def State.timeOut (s : State) : Bool := s.status.getLsbD 4

/-- PD, bit 3. -/
def State.powerDown (s : State) : Bool := s.status.getLsbD 3

/-- Z, bit 2. -/
def State.zero (s : State) : Bool := s.status.getLsbD 2

/-- DC, bit 1. -/
def State.digitCarry (s : State) : Bool := s.status.getLsbD 1

/-- C, bit 0. -/
def State.carry (s : State) : Bool := s.status.getLsbD 0

def State.setTimeOut (s : State) (b : Bool) : State := s.setStatus (setBit s.status 4 b)

def State.setPowerDown (s : State) (b : Bool) : State := s.setStatus (setBit s.status 3 b)

def State.setZero (s : State) (b : Bool) : State := s.setStatus (setBit s.status 2 b)

def State.setDigitCarry (s : State) (b : Bool) : State := s.setStatus (setBit s.status 1 b)

def State.setCarry (s : State) (b : Bool) : State := s.setStatus (setBit s.status 0 b)

/-- Data written to STATUS: bits 7:5 and 2:0 from the data, TO and PD kept (R16). -/
def State.writeStatus (s : State) (v : Byte) : State :=
  s.setStatus ((v &&& 0xE7#8) ||| (s.status &&& 0x18#8))

/-! ## Flag rules of the instructions -/

/-- Z from an 8-bit result (R18). -/
def flagZ (r : Byte) (s : State) : State := s.setZero (r == 0#8)

/-- C, DC and Z of the addition `a + b + cin` (R18, R19, R20). -/
def flagsCDcZ (a b : Byte) (cin : Bool) (s : State) : State :=
  ((s.setCarry (carry8 a b cin)).setDigitCarry (carry4 a b cin)).setZero (sum8 a b cin == 0#8)

/-! ## INTCON (R24) -/

/-- GIE, bit 7. -/
def State.gie (s : State) : Bool := s.intcon.getLsbD 7

def State.setGie (s : State) (b : Bool) : State := s.setIntcon (setBit s.intcon 7 b)

end Sys2Proof.Machine
end

