-- ==== Sys2Proof/Machine/Ops.lean ====
section
/-! DEFINITION. The shared operations: sequencing, free values, the return stack (10_state.md R22, R23),
the skip (41_byte_oriented.md R101), branch targets (44_control_operations.md R139), and taking the
interrupt and returning from it (60_exceptions.md R162, R164). The interrupt is the machine's only
exception (R166). -/

namespace Sys2Proof.Machine

/-- What an operation answers. -/
abbrev Result (α : Type) := Host.Outcome α Fault Refusal

/-- Go on with the answer, unless the operation stopped. -/
def andThen {α β : Type} (x : Result α) (k : α → Result β) : Result β :=
  match x with
  | .next a => k a
  | .fault e => .fault e
  | .refused e => .refused e

/-! ## Free values (93_implementation_defined.md, "any value"; log 7) -/

def drawByte (s : State) : Byte × State :=
  (Config.freeByte s.draws, s.setDraws (s.draws + 1))

def drawPc (s : State) : Pc × State :=
  (Config.freePc s.draws, s.setDraws (s.draws + 1))

/-! ## The return stack -/

/-- Fill the slot the pointer names and move the pointer up, modulo 8 (R23). -/
def ringPush (r : Ring) (v : Pc) : Ring :=
  ⟨r.slots.set r.ptr.toNat (some v) r.ptr.isLt, r.ptr + 1#3⟩

/-- The slot below the pointer. -/
def ringTop (r : Ring) : Option Pc :=
  r.slots.get ⟨(r.ptr - 1#3).toNat, (r.ptr - 1#3).isLt⟩

/-- Move the pointer down, modulo 8, with `v` the value the slot held or was found to hold. -/
def ringPop (r : Ring) (v : Pc) : Ring :=
  ⟨r.slots.set (r.ptr - 1#3).toNat (some v) (r.ptr - 1#3).isLt, r.ptr - 1#3⟩

/-- `Push(v)` (R22). -/
def push (v : Pc) (s : State) : Result State :=
  match s.cfg.stackPolicy with
  | .fault =>
    if s.stack.length < 8 then .next (s.setStack (v :: s.stack)) else .fault (.stackOverflow v)
  | .wrap => .next (s.setRing (ringPush s.ring v))

/-- `Pop()` (R23): under `wrap` a slot no push has written yields a free value, which the slot then
holds (93_implementation_defined.md U5; log 15). -/
def pop (s : State) : Result (Pc × State) :=
  match s.cfg.stackPolicy with
  | .fault =>
    match s.stack with
    | v :: rest => .next (v, s.setStack rest)
    | [] => .fault .stackUnderflow
  | .wrap =>
    match ringTop s.ring with
    | some v => .next (v, s.setRing (ringPop s.ring v))
    | none =>
      let (v, t) := drawPc s
      .next (v, t.setRing (ringPop t.ring v))

/-! ## Control flow -/

/-- `Skip()` when `b` holds: pass over the following instruction (R101). PC already names it. -/
def skipIf (b : Bool) (s : State) : State :=
  s.setPc (if b then s.pc + 1#13 else s.pc)

/-- `Target(k11) = PCLATH[4:3] : k11` (R139). -/
def branchTarget (k : PageAddr) (s : State) : Pc :=
  s.pclath.extractLsb' 3 2 ++ k

/-- The interrupt vector (60_exceptions.md R163). -/
def interruptVector : Pc := 0x0004#13

/-- The reset vector (70_reset_and_hazards.md R181). -/
def resetVector : Pc := 0x0000#13

/-- Interrupt entry (60_exceptions.md R162): GIE cleared, PC pushed, PC at the vector. -/
def takeInterrupt (s : State) : Result State :=
  andThen (push s.pc (s.setGie false)) fun t => .next (t.setPc interruptVector)

/-- The test made after a completed instruction (60_exceptions.md R162; 00_scope.md R8). -/
def interruptCheck (s : State) : Result State :=
  if s.irq && s.gie && !s.asleep then takeInterrupt s else .next s

/-- `pc <- Pop()`, common to the three returns (44_control_operations.md R142 to R144). -/
def popPc (s : State) : Result State :=
  andThen (pop s) fun r => .next (r.2.setPc r.1)

/-- Return from interrupt: `pc <- Pop(); INTCON.GIE <- 1` (60_exceptions.md R164). -/
def returnFromInterrupt (s : State) : Result State :=
  andThen (popPc s) fun t => .next (t.setGie true)

end Sys2Proof.Machine
end

