-- ==== Sys2Proof/Machine/Operands.lean ====
section
/-! DEFINITION. The data space: direct and indirect addresses (20_memory.md R42, R43), what stands at an
address (R44, R45, `FileMap`), reading and writing it, and the operand and destination of the file
register instructions (41_byte_oriented.md R100). -/

namespace Sys2Proof.Machine

/-- What a data access reaches, after indirection and the register dispatch of R44 and R45. -/
inductive FileTarget where
  /-- INDF reached through itself: reads 00h, a write does nothing (R43). -/
  | indfItself
  | pcl
  | status
  | fsr
  | pclath
  | intcon
  | ram (cell : Nat)
  | device (reg : Nat)
  | unimplemented (a : DataAddr)
deriving DecidableEq, Repr

/-- The offset of an address in its bank, `a[6:0]`. -/
def bankOffset (a : DataAddr) : FileField := a.extractLsb' 0 7

/-- `DataEA(f) = STATUS.RP1 : STATUS.RP0 : f` (R42). -/
def dataEA (f : FileField) (s : State) : DataAddr := s.rp ++ f

/-- `IndEA = STATUS.IRP : FSR` (R43). -/
def indEA (s : State) : DataAddr := s.irp ++ s.fsr

/-- The entry number `i` of a region. -/
def fileEntryAt (k : FileKind) (i : Nat) : FileEntry :=
  match k with
  | .ram c => .ram (c + i)
  | .device r => .device (r + i)
  | .unimplemented => .unimplemented

/-- `FileMap(a)`: the first region that holds the address (log 20). -/
def fileMapEntry : List FileRegion → Nat → FileEntry
  | [], _ => .unimplemented
  | r :: rest, a =>
    if r.first ≤ a ∧ a < r.first + r.size then fileEntryAt r.kind (a - r.first)
    else fileMapEntry rest a

/-- The dispatch of R44 and R45 below the INDF line. -/
def directTarget (a : DataAddr) (s : State) : FileTarget :=
  let r := bankOffset a
  if r = s.cfg.addrPcl then .pcl
  else if r = statusOffset then .status
  else if r = s.cfg.addrFsr then .fsr
  else if r = s.cfg.addrPclath then .pclath
  else if r = s.cfg.addrIntcon then .intcon
  else
    match fileMapEntry s.cfg.fileMap a.toNat with
    | .ram c => .ram c
    | .device g => .device g
    | .unimplemented => .unimplemented a

/-- The whole dispatch of R44 and R45: an access at `ADDR_INDF` goes to `IndEA` (R43). -/
def target (a : DataAddr) (s : State) : FileTarget :=
  if bankOffset a = s.cfg.addrIndf then
    if bankOffset (indEA s) = s.cfg.addrIndf then .indfItself else directTarget (indEA s) s
  else directTarget a s

/-- What the `f` field of an instruction names. -/
def fileTarget (f : FileField) (s : State) : FileTarget := target (dataEA f s) s

/-- A read of a device register: the platform answers with a free byte and sees the read (log 8). -/
def deviceRead (reg : Nat) (s : State) : Byte × State :=
  let (v, t) := drawByte s
  (v, t.setDeviceLog (.read reg v :: t.deviceLog))

/-- A write of a device register: the platform sees it (log 8). -/
def deviceWrite (reg : Nat) (v : Byte) (s : State) : State :=
  s.setDeviceLog (.write reg v :: s.deviceLog)

/-- The read half of the dispatch (R44; PCL by 10_state.md R12, PCLATH by R14). -/
def readTarget (t : FileTarget) (s : State) : Result (Byte × State) :=
  match t with
  | .indfItself => .next (0#8, s)
  | .pcl => .next (s.pc.extractLsb' 0 8, s)
  | .status => .next (s.status, s)
  | .fsr => .next (s.fsr, s)
  | .pclath => .next (s.pclath.setWidth 8, s)
  | .intcon => .next (s.intcon, s)
  | .ram c => .next (s.ramByte c, s)
  | .device g => .next (deviceRead g s)
  | .unimplemented a => .fault (.unmappedFile a)

/-- The write half of the dispatch (R45; PCL by 10_state.md R13, STATUS by R16, PCLATH by R14). -/
def writeTarget (t : FileTarget) (v : Byte) (s : State) : Result State :=
  match t with
  | .indfItself => .next s
  | .pcl => .next (s.setPc (s.pclath ++ v))
  | .status => .next (s.writeStatus v)
  | .fsr => .next (s.setFsr v)
  | .pclath => .next (s.setPclath (v.extractLsb' 0 5))
  | .intcon => .next (s.setIntcon v)
  | .ram c => .next (s.writeRam c v)
  | .device g => .next (deviceWrite g v s)
  | .unimplemented a => .fault (.unmappedFile a)

/-- `DataRead(a)` (R44). -/
def dataRead (a : DataAddr) (s : State) : Result (Byte × State) := readTarget (target a s) s

/-- `DataWrite(a, v)` (R45). -/
def dataWrite (a : DataAddr) (v : Byte) (s : State) : Result State := writeTarget (target a s) v s

/-- `FileRead(f)` (00_scope.md R7). -/
def fileRead (f : FileField) (s : State) : Result (Byte × State) := dataRead (dataEA f s) s

/-- `FileWrite(f, v)` (00_scope.md R7). -/
def fileWrite (f : FileField) (v : Byte) (s : State) : Result State := dataWrite (dataEA f s) v s

/-- `Dest(d, f, r)` (41_byte_oriented.md R100). -/
def writeDest (d : Dest) (f : FileField) (r : Byte) (s : State) : Result State :=
  match d with
  | .w => .next (s.setW r)
  | .f => fileWrite f r s

/-- The shape of R100: read the operand, deliver the result, then do what comes last (the flags or
the skip), each from the value read. -/
def fileOp (f : FileField) (d : Dest) (result : Byte → Byte) (last : Byte → State → State)
    (s : State) : Result State :=
  andThen (fileRead f s) fun r =>
    andThen (writeDest d f (result r.1) r.2) fun t => .next (last r.1 t)

/-- The shape of the two bit tests: read the operand, then skip or not; nothing is written. -/
def fileTest (f : FileField) (skips : Byte → Bool) (s : State) : Result State :=
  andThen (fileRead f s) fun r => .next (skipIf (skips r.1) r.2)

end Sys2Proof.Machine
end

