-- ==== Sys2Proof/Machine/ByteOriented.lean ====
section
/-! DEFINITION. The byte-oriented file register operations (41_byte_oriented.md R103 to R120). PC already
holds the address after the instruction (00_scope.md R8). -/

namespace Sys2Proof.Machine

/-- R103, ADDWF: `W + f`. -/
def execAddwf (f : FileField) (d : Dest) (s : State) : Result State :=
  fileOp f d (fun v => sum8 s.w v false) (fun v => flagsCDcZ s.w v false) s

/-- R104, ANDWF. -/
def execAndwf (f : FileField) (d : Dest) (s : State) : Result State :=
  fileOp f d (fun v => s.w &&& v) (fun v => flagZ (s.w &&& v)) s

/-- R105, CLRF: the register is written without being read. -/
def execClrf (f : FileField) (s : State) : Result State :=
  andThen (fileWrite f 0#8 s) fun t => .next (t.setZero true)

/-- R106, CLRW. -/
def execClrw (s : State) : Result State :=
  .next ((s.setW 0#8).setZero true)

/-- R107, COMF: the bitwise complement. -/
def execComf (f : FileField) (d : Dest) (s : State) : Result State :=
  fileOp f d (fun v => ~~~v) (fun v => flagZ (~~~v)) s

/-- R108, DECF: Z alone. -/
def execDecf (f : FileField) (d : Dest) (s : State) : Result State :=
  fileOp f d (fun v => v - 1#8) (fun v => flagZ (v - 1#8)) s

/-- R109, DECFSZ: no flag; skip on a zero result. -/
def execDecfsz (f : FileField) (d : Dest) (s : State) : Result State :=
  fileOp f d (fun v => v - 1#8) (fun v => skipIf (v - 1#8 == 0#8)) s

/-- R110, INCF: Z alone. -/
def execIncf (f : FileField) (d : Dest) (s : State) : Result State :=
  fileOp f d (fun v => v + 1#8) (fun v => flagZ (v + 1#8)) s

/-- R111, INCFSZ: no flag; skip on a zero result. -/
def execIncfsz (f : FileField) (d : Dest) (s : State) : Result State :=
  fileOp f d (fun v => v + 1#8) (fun v => skipIf (v + 1#8 == 0#8)) s

/-- R112, IORWF. -/
def execIorwf (f : FileField) (d : Dest) (s : State) : Result State :=
  fileOp f d (fun v => s.w ||| v) (fun v => flagZ (s.w ||| v)) s

/-- R113, MOVF: Z from the value moved. -/
def execMovf (f : FileField) (d : Dest) (s : State) : Result State :=
  fileOp f d (fun v => v) (fun v => flagZ v) s

/-- R114, MOVWF: the register is not read. -/
def execMovwf (f : FileField) (s : State) : Result State :=
  fileWrite f s.w s

/-- R115, NOP: nothing; PC has already advanced. -/
def execNop (s : State) : Result State :=
  .next s

/-- R116, RLF: `C : v` rotated one place to the left. -/
def execRlf (f : FileField) (d : Dest) (s : State) : Result State :=
  fileOp f d (fun v => v.extractLsb' 0 7 ++ BitVec.ofBool s.carry) (fun v t => t.setCarry (v.getLsbD 7)) s

/-- R117, RRF: `v : C` rotated one place to the right. -/
def execRrf (f : FileField) (d : Dest) (s : State) : Result State :=
  fileOp f d (fun v => BitVec.ofBool s.carry ++ v.extractLsb' 1 7) (fun v t => t.setCarry (v.getLsbD 0)) s

/-- R118, SUBWF: `f - W` as `f + ~W + 1` (conflict C6). -/
def execSubwf (f : FileField) (d : Dest) (s : State) : Result State :=
  fileOp f d (fun v => sum8 v (~~~s.w) true) (fun v => flagsCDcZ v (~~~s.w) true) s

/-- R119, SWAPF: no flag. -/
def execSwapf (f : FileField) (d : Dest) (s : State) : Result State :=
  fileOp f d (fun v => v.extractLsb' 0 4 ++ v.extractLsb' 4 4) (fun _ t => t) s

/-- R120, XORWF. -/
def execXorwf (f : FileField) (d : Dest) (s : State) : Result State :=
  fileOp f d (fun v => s.w ^^^ v) (fun v => flagZ (s.w ^^^ v)) s

end Sys2Proof.Machine
end

