-- ==== Sys2Proof/Machine/BitOriented.lean ====
section
/-! DEFINITION. The bit-oriented file register operations (42_bit_oriented.md R121 to R125). -/

namespace Sys2Proof.Machine

/-- R122, BCF: the whole byte is read and the whole byte is written. -/
def execBcf (f : FileField) (b : BitNum) (s : State) : Result State :=
  fileOp f .f (fun v => setBit v b.toNat false) (fun _ t => t) s

/-- R123, BSF. -/
def execBsf (f : FileField) (b : BitNum) (s : State) : Result State :=
  fileOp f .f (fun v => setBit v b.toNat true) (fun _ t => t) s

/-- R124, BTFSC: skip when the bit is 0. -/
def execBtfsc (f : FileField) (b : BitNum) (s : State) : Result State :=
  fileTest f (fun v => !v.getLsbD b.toNat) s

/-- R125, BTFSS: skip when the bit is 1. -/
def execBtfss (f : FileField) (b : BitNum) (s : State) : Result State :=
  fileTest f (fun v => v.getLsbD b.toNat) s

end Sys2Proof.Machine
end

