-- ==== Sys2Proof/Machine/Control.lean ====
section
/-! DEFINITION. The control operations (44_control_operations.md R139 to R146). PC already holds the
address after the instruction (00_scope.md R8). -/

namespace Sys2Proof.Machine

/-- R140, CALL: push the address after the CALL, go to the target. -/
def execCall (k : PageAddr) (s : State) : Result State :=
  andThen (push s.pc s) fun t => .next (t.setPc (branchTarget k t))

/-- R141, GOTO. -/
def execGoto (k : PageAddr) (s : State) : Result State :=
  .next (s.setPc (branchTarget k s))

/-- R142, RETURN. -/
def execReturn (s : State) : Result State :=
  popPc s

/-- R143, RETLW. -/
def execRetlw (k : Byte) (s : State) : Result State :=
  popPc (s.setW k)

/-- R144, RETFIE. -/
def execRetfie (s : State) : Result State :=
  returnFromInterrupt s

/-- R145, CLRWDT: it acts whether or not the watchdog is enabled. -/
def execClrwdt (s : State) : Result State :=
  .next (((s.setWdt 0).setTimeOut true).setPowerDown true)

/-- R146, SLEEP. -/
def execSleep (s : State) : Result State :=
  .next ((((s.setWdt 0).setTimeOut true).setPowerDown false).setAsleep true)

end Sys2Proof.Machine
end

