-- ==== Sys2Proof/Machine/Literal.lean ====
section
/-! DEFINITION. The literal operations (43_literal_operations.md R130 to R136): W and an 8-bit literal. -/

namespace Sys2Proof.Machine

/-- R131, ADDLW: `W + k`. -/
def execAddlw (k : Byte) (s : State) : Result State :=
  .next ((flagsCDcZ s.w k false s).setW (sum8 s.w k false))

/-- R132, ANDLW. -/
def execAndlw (k : Byte) (s : State) : Result State :=
  .next (flagZ (s.w &&& k) (s.setW (s.w &&& k)))

/-- R133, IORLW. -/
def execIorlw (k : Byte) (s : State) : Result State :=
  .next (flagZ (s.w ||| k) (s.setW (s.w ||| k)))

/-- R134, MOVLW: no flag. -/
def execMovlw (k : Byte) (s : State) : Result State :=
  .next (s.setW k)

/-- R135, SUBLW: `k - W` as `k + ~W + 1`. -/
def execSublw (k : Byte) (s : State) : Result State :=
  .next ((flagsCDcZ k (~~~s.w) true s).setW (sum8 k (~~~s.w) true))

/-- R136, XORLW. -/
def execXorlw (k : Byte) (s : State) : Result State :=
  .next (flagZ (s.w ^^^ k) (s.setW (s.w ^^^ k)))

end Sys2Proof.Machine
end

