-- ==== Sys2Proof/Machine/Environment.lean ====
section
/-! DEFINITION. What the environment does between CPU steps (00_scope.md R5): the request line
(60_exceptions.md R161), the watchdog time-out (R172) and the three kinds of reset
(70_reset_and_hazards.md R180). -/

namespace Sys2Proof.Machine

/-- The level of the request line: the OR over the sources of (flag AND enable) (R161; log 10). -/
def irqOf (q : IrqSources) : Bool :=
  (q.t0if && q.t0ie) || (q.intf && q.inte) || (q.rbif && q.rbie) || (q.eeif && q.eeie)

/-- What every reset does (R180; 10_state.md R30): PC at the reset vector, IRP, RP1, RP0 and PCLATH
cleared, GIE cleared with INTCON[6:0] whatever the platform puts there (log 11), the stack empty, the
CPU awake, the watchdog's count cleared. -/
def anyReset (s : State) : State :=
  { s with
    pc := resetVector
    status := s.status &&& 0x1F#8
    pclath := 0#5
    intcon := Config.freeByte s.draws &&& 0x7F#8
    stack := []
    ring := Ring.empty
    asleep := false
    wdt := 0
    draws := s.draws + 1 }

/-- External reset (R180): TO, PD and the rest unchanged. -/
def externalReset (s : State) : State := anyReset s

/-- Watchdog reset (R180): TO cleared, PD unknown (93_implementation_defined.md U9; log 11). -/
def watchdogReset (s : State) : State :=
  let t := anyReset s
  { t with
    status := setBit (setBit t.status 4 false) 3 (Config.freeBit t.draws)
    draws := t.draws + 1 }

/-- Power-up (R180; 10_state.md R30): TO and PD set; W, FSR, Z, DC, C and the RAM cells unknown
(log 12). The code image is kept. -/
def powerUpReset (s : State) : State :=
  let t := anyReset s
  { t with
    status := 0x18#8 ||| (Config.freeByte t.draws &&& 0x07#8)
    w := Config.freeByte (t.draws + 1)
    fsr := Config.freeByte (t.draws + 2)
    data := []
    powerUps := t.powerUps + 1
    draws := t.draws + 3 }

/-- A time-out may occur: the watchdog is enabled and at least one CPU step has passed since CLRWDT,
SLEEP or reset (R172; log 13). -/
def timeoutAllowed (s : State) : Bool := s.cfg.wdtEnabled && decide (1 ≤ s.wdt)

/-- A watchdog time-out (R172, R170): awake, a watchdog reset; asleep, a wake-up with TO cleared.
Where none may occur, nothing happens (log 13). -/
def watchdogTimeout (s : State) : State :=
  if timeoutAllowed s then
    if s.asleep then (s.setAsleep false).setTimeOut false else watchdogReset s
  else s

/-- The effect of one event. -/
def applyEvent (e : EnvEvent) (s : State) : State :=
  match e with
  | .irqLine level => s.setIrq level
  | .irqSources q => s.setIrq (irqOf q)
  | .watchdogTimeout => watchdogTimeout s
  | .externalReset => externalReset s
  | .powerUp => powerUpReset s

end Sys2Proof.Machine
end

