-- ==== Sys2Proof/Machine/Cycle.lean ====
section
/-! DEFINITION. The instruction cycle (00_scope.md R8), the step of a sleeping CPU (60_exceptions.md
R170), and whose turn it is (00_scope.md R5; log 9). -/

namespace Sys2Proof.Machine

/-- PC moved to the following instruction, modulo 2^13 (R8; 10_state.md R11), and one more step since
the watchdog was cleared (log 13). -/
def advance (s : State) : State :=
  (s.setPc (s.pc + 1#13)).setWdt (s.wdt + 1)

/-- The step of an awake CPU (R8): fetch, advance, execute, then the interrupt test. An unassigned
word stops the run (30_encoding.md R68). -/
def awakeStep (s : State) : Result State :=
  match decode (s.progRead s.pc) with
  | .error _ => .fault (.reservedInstruction s.pc (s.progRead s.pc))
  | .ok i => andThen (exec i (advance s)) interruptCheck

/-- The step of a sleeping CPU (R170): IRQ wakes it, whatever GIE holds; nothing else changes but the
watchdog's count (logs 13 and 14). -/
def sleepStep (s : State) : State :=
  (s.setAsleep (!s.irq)).setWdt (s.wdt + 1)

def cpuStep (s : State) : Result State :=
  if s.asleep then .next (sleepStep s) else awakeStep s

/-- The schedule says who moves; after its end the CPU moves. -/
def scheduledStep (s : State) : Result State :=
  match s.env with
  | [] => cpuStep s
  | .cpu :: rest => cpuStep (s.setEnv rest)
  | .environment e :: rest => .next (applyEvent e (s.setEnv rest))

/-- `s` made ready to fetch and run the word `v` in its very next step: the word placed at PC, the CPU
awake, the CPU's turn (log 19). -/
def readyToFetch (s : State) (v : CodeWord) : State :=
  ((s.placeCode s.pc v).setAsleep false).setEnv []

end Sys2Proof.Machine
end

