-- ==== Sys2Proof/Machine/Step.lean ====
section
/-! DEFINITION. One step of the machine, and a word placed where it fetches. -/

namespace Sys2Proof.Machine

/-- One step: an event of the environment or a step of the CPU (Machine/Cycle.lean). -/
def step (s : State) : Host.Outcome State Fault Refusal := scheduledStep s

/-- `s` with the instruction word `w` stored where `step` fetches next, so that the next step runs it.
The bits of `w` are numbered as spec/opcode_table.json numbers them (log 19). -/
def State.withFetchWord (s : State) (nbits w : Nat) : State :=
  readyToFetch s (BitVec.ofNat 14 (w % 2 ^ nbits))

end Sys2Proof.Machine
end

