-- ==== Sys2Proof/Machine/Timing.lean ====
section
/-! DEFINITION. The cycle counts of 70_reset_and_hazards.md R191. Timing only: no step uses them
(92_eei_decisions.md D15; log 21). -/

namespace Sys2Proof.Machine

/-- The byte a read of `f` would give, 0 where the read stops. -/
def peekFile (f : FileField) (s : State) : Byte :=
  match fileRead f s with
  | .next r => r.1
  | .fault _ => 0#8
  | .refused _ => 0#8

/-- One cycle, or two when the destination is PCL (R191, last row). -/
def cyclesOfWrite (d : Dest) (f : FileField) (s : State) : Nat :=
  if d = .f ∧ fileTarget f s = .pcl then 2 else 1

/-- "1(2)": two when the skip is taken. -/
def cyclesOfSkip (skips : Bool) : Nat := if skips then 2 else 1

/-- The machine cycles of an instruction executed at `s`, where PC already holds the address after it
(R191). -/
def cycles (i : Instr) (s : State) : Nat :=
  match i with
  | .addwf f d => cyclesOfWrite d f s
  | .andwf f d => cyclesOfWrite d f s
  | .clrf f => cyclesOfWrite .f f s
  | .clrw => 1
  | .comf f d => cyclesOfWrite d f s
  | .decf f d => cyclesOfWrite d f s
  | .decfsz f _ => cyclesOfSkip (peekFile f s - 1#8 == 0#8)
  | .incf f d => cyclesOfWrite d f s
  | .incfsz f _ => cyclesOfSkip (peekFile f s + 1#8 == 0#8)
  | .iorwf f d => cyclesOfWrite d f s
  | .movf f d => cyclesOfWrite d f s
  | .movwf f => cyclesOfWrite .f f s
  | .nop => 1
  | .rlf f d => cyclesOfWrite d f s
  | .rrf f d => cyclesOfWrite d f s
  | .subwf f d => cyclesOfWrite d f s
  | .swapf f d => cyclesOfWrite d f s
  | .xorwf f d => cyclesOfWrite d f s
  | .bcf f _ => cyclesOfWrite .f f s
  | .bsf f _ => cyclesOfWrite .f f s
  | .btfsc f b => cyclesOfSkip (!(peekFile f s).getLsbD b.toNat)
  | .btfss f b => cyclesOfSkip ((peekFile f s).getLsbD b.toNat)
  | .addlw _ => 1
  | .andlw _ => 1
  | .call _ => 2
  | .clrwdt => 1
  | .goto _ => 2
  | .iorlw _ => 1
  | .movlw _ => 1
  | .retfie => 2
  | .retlw _ => 2
  | .ret => 2
  | .sleep => 1
  | .sublw _ => 1
  | .xorlw _ => 1

end Sys2Proof.Machine
end

