-- ==== Sys2Proof/Safety.lean ====
section
/-! DEFINITION. What claims are said in: a well-formed state, a run that does not stop, the end of a
run (70_reset_and_hazards.md R183), and the whole effect of an instruction on every field of State. -/

namespace Sys2Proof.Machine

/-- The well-formed states: both memories in their canonical form, at most eight return addresses
(10_state.md R22), a configuration the spec admits. -/
structure State.Wf (s : State) : Prop where
  data : s.data.wf = true
  code : CodeImage.wf s.cfg.erasedWord s.code = true
  stack : s.stack.length ≤ 8
  cfg : s.cfg.wf = true

/-- The state after `k` steps, if none of them stops. -/
def runSteps : Nat → State → Result State
  | 0, s => .next s
  | k + 1, s => andThen (step s) (runSteps k)

/-- `k` steps run without a fault or a refusal. -/
def RunsFor (k : Nat) (s : State) : Prop := ∃ t, runSteps k s = .next t

/-- The environment does nothing more at all: only CPU turns are left. -/
def quietSchedule (turns : List Turn) : Bool := turns.all fun t => decide (t = .cpu)

/-- A turn that puts the request line at 1. -/
def Turn.raisesRequest : Turn → Bool
  | .cpu => false
  | .environment (.irqLine level) => level
  | .environment (.irqSources q) => irqOf q
  | .environment .watchdogTimeout => false
  | .environment .externalReset => false
  | .environment .powerUp => false

/-- IRQ = 0 from now on (R183): the line is 0 and no turn to come raises it. Time-outs, resets and
power-ups may come. -/
def State.irqStaysLow (s : State) : Bool := !s.irq && s.env.all fun t => !t.raisesRequest

/-- The end state of a run (R183, decision D19): awake, at a GOTO to itself under the current PCLATH,
with GIE = 0 or IRQ = 0 from then on. Nothing is asked of the watchdog or of the resets to come. -/
def State.atEnd (s : State) : Bool :=
  !s.asleep &&
  (match decode (s.progRead s.pc) with
    | .ok (.goto k) => decide (branchTarget k s = s.pc)
    | _ => false) &&
  (!s.gie || s.irqStaysLow)

/-- A time-out that wakes a sleeping CPU is to come (60_exceptions.md R170, R172): the watchdog enabled,
the count, now `n`, at least 1 by then, and no reset before it. -/
def timeoutToCome (enabled : Bool) : Nat → List Turn → Bool
  | _, [] => false
  | n, .cpu :: rest => timeoutToCome enabled (n + 1) rest
  | n, .environment e :: rest =>
    match e with
    | .irqLine _ | .irqSources _ => timeoutToCome enabled n rest
    | .watchdogTimeout => (enabled && decide (1 ≤ n)) || timeoutToCome enabled n rest
    | .externalReset | .powerUp => false

/-- The other quiescent state (R183, R170): asleep with no wake-up to come, neither by the request line
nor by the watchdog. A reset to come is no wake-up. -/
def State.hangs (s : State) : Bool :=
  s.asleep && s.irqStaysLow && !timeoutToCome s.cfg.wdtEnabled s.wdt s.env

/-! ## The effect of an instruction, field by field -/

/-- The byte a read finds at a target (20_memory.md R44): a device register answers with the next
free byte. -/
def valueAt (t : FileTarget) (s : State) : Byte :=
  match t with
  | .indfItself => 0#8
  | .pcl => s.pc.extractLsb' 0 8
  | .status => s.status
  | .fsr => s.fsr
  | .pclath => s.pclath.setWidth 8
  | .intcon => s.intcon
  | .ram c => s.ramByte c
  | .device _ => Config.freeByte s.draws
  | .unimplemented _ => 0#8

/-- The `f` field names something the machine has. -/
def Mapped (f : FileField) (s : State) : Prop := ∀ a, fileTarget f s ≠ .unimplemented a

/-- The target an instruction stores its result to, if it stores to a file register. -/
def storesTo (i : Instr) (s : State) : Option FileTarget :=
  match i with
  | .addwf f d | .andwf f d | .comf f d | .decf f d | .decfsz f d | .incf f d | .incfsz f d
  | .iorwf f d | .movf f d | .rlf f d | .rrf f d | .subwf f d | .swapf f d | .xorwf f d =>
    if d = .f then some (fileTarget f s) else none
  | .clrf f | .movwf f | .bcf f _ | .bsf f _ => some (fileTarget f s)
  | .clrw | .nop | .btfsc _ _ | .btfss _ _ | .addlw _ | .andlw _ | .call _ | .clrwdt | .goto _
  | .iorlw _ | .movlw _ | .retfie | .retlw _ | .ret | .sleep | .sublw _ | .xorlw _ => none

/-- The byte an instruction delivers to its file register, from the registers and the byte `f` names
before it (41_byte_oriented.md R103 to R120; 42_bit_oriented.md R122, R123); 0 where it delivers none. -/
def fileResult (i : Instr) (s : State) : Byte :=
  match i with
  | .addwf f _ => BitVec.ofNat 8 (s.w.toNat + (valueAt (fileTarget f s) s).toNat)
  | .andwf f _ => s.w &&& valueAt (fileTarget f s) s
  | .clrf _ => 0x00#8
  | .comf f _ => BitVec.ofNat 8 (255 - (valueAt (fileTarget f s) s).toNat)
  | .decf f _ | .decfsz f _ => BitVec.ofNat 8 ((valueAt (fileTarget f s) s).toNat + 255)
  | .incf f _ | .incfsz f _ => BitVec.ofNat 8 ((valueAt (fileTarget f s) s).toNat + 1)
  | .iorwf f _ => s.w ||| valueAt (fileTarget f s) s
  | .movf f _ => valueAt (fileTarget f s) s
  | .movwf _ => s.w
  | .rlf f _ => BitVec.ofNat 8 (2 * (valueAt (fileTarget f s) s).toNat + s.carry.toNat)
  | .rrf f _ => BitVec.ofNat 8 ((valueAt (fileTarget f s) s).toNat / 2 + 128 * s.carry.toNat)
  | .subwf f _ => BitVec.ofNat 8 ((valueAt (fileTarget f s) s).toNat + 256 - s.w.toNat)
  | .swapf f _ =>
    BitVec.ofNat 8 (16 * ((valueAt (fileTarget f s) s).toNat % 16) + (valueAt (fileTarget f s) s).toNat / 16)
  | .xorwf f _ => s.w ^^^ valueAt (fileTarget f s) s
  | .bcf f b => valueAt (fileTarget f s) s &&& ~~~(1#8 <<< b.toNat)
  | .bsf f b => valueAt (fileTarget f s) s ||| (1#8 <<< b.toNat)
  | .clrw | .nop | .btfsc _ _ | .btfss _ _ | .addlw _ | .andlw _ | .call _ | .clrwdt | .goto _
  | .iorlw _ | .movlw _ | .retfie | .retlw _ | .ret | .sleep | .sublw _ | .xorlw _ => 0x00#8

/-- The instructions that skip on a zero result (R109, R111). -/
def skipsOnZero (i : Instr) : Prop := ∃ f d, i = .decfsz f d ∨ i = .incfsz f d

/-- The instructions R18 lists. -/
def writesZero (i : Instr) : Bool :=
  match i with
  | .addwf _ _ | .andwf _ _ | .clrf _ | .clrw | .comf _ _ | .decf _ _ | .incf _ _ | .iorwf _ _
  | .movf _ _ | .subwf _ _ | .xorwf _ _ | .addlw _ | .andlw _ | .iorlw _ | .sublw _ | .xorlw _ => true
  | .decfsz _ _ | .incfsz _ _ | .movwf _ | .nop | .rlf _ _ | .rrf _ _ | .swapf _ _ | .bcf _ _
  | .bsf _ _ | .btfsc _ _ | .btfss _ _ | .movlw _ | .retlw _ | .call _ | .clrwdt | .goto _
  | .retfie | .ret | .sleep => false

/-- The instructions R20 lists. -/
def writesDigitCarry (i : Instr) : Bool :=
  match i with
  | .addwf _ _ | .subwf _ _ | .addlw _ | .sublw _ => true
  | .andwf _ _ | .clrf _ | .clrw | .comf _ _ | .decf _ _ | .decfsz _ _ | .incf _ _ | .incfsz _ _
  | .iorwf _ _ | .movf _ _ | .movwf _ | .nop | .rlf _ _ | .rrf _ _ | .swapf _ _ | .xorwf _ _
  | .bcf _ _ | .bsf _ _ | .btfsc _ _ | .btfss _ _ | .andlw _ | .call _ | .clrwdt | .goto _
  | .iorlw _ | .movlw _ | .retfie | .retlw _ | .ret | .sleep | .xorlw _ => false

/-- The instructions R19 lists: those of R20 and the two rotates. -/
def writesCarry (i : Instr) : Bool :=
  writesDigitCarry i ||
  match i with
  | .rlf _ _ | .rrf _ _ => true
  | .addwf _ _ | .andwf _ _ | .clrf _ | .clrw | .comf _ _ | .decf _ _ | .decfsz _ _ | .incf _ _
  | .incfsz _ _ | .iorwf _ _ | .movf _ _ | .movwf _ | .nop | .subwf _ _ | .swapf _ _ | .xorwf _ _
  | .bcf _ _ | .bsf _ _ | .btfsc _ _ | .btfss _ _ | .addlw _ | .andlw _ | .call _ | .clrwdt
  | .goto _ | .iorlw _ | .movlw _ | .retfie | .retlw _ | .ret | .sleep | .sublw _ | .xorlw _ => false

/-- The instructions R10 says write W: the byte-oriented ones with `d = 0`, CLRW, the literal ones
and RETLW. -/
def writesW (i : Instr) : Bool :=
  match i with
  | .addwf _ d | .andwf _ d | .comf _ d | .decf _ d | .decfsz _ d | .incf _ d | .incfsz _ d
  | .iorwf _ d | .movf _ d | .rlf _ d | .rrf _ d | .subwf _ d | .swapf _ d | .xorwf _ d =>
    decide (d = .w)
  | .clrw | .addlw _ | .andlw _ | .iorlw _ | .movlw _ | .retlw _ | .sublw _ | .xorlw _ => true
  | .clrf _ | .movwf _ | .nop | .bcf _ _ | .bsf _ _ | .btfsc _ _ | .btfss _ _ | .call _ | .clrwdt
  | .goto _ | .retfie | .ret | .sleep => false

/-- The instructions R22 names: CALL pushes; RETURN, RETLW and RETFIE pop. -/
def usesStack (i : Instr) : Prop :=
  i = .ret ∨ i = .retfie ∨ (∃ k, i = .retlw k) ∨ (∃ k, i = .call k)

/-- What an instruction is said to do; what it does not name, it leaves alone. -/
structure Change where
  /-- The new W. -/
  w : Option Byte := none
  /-- The file register stored to, and the byte stored. -/
  store : Option (FileTarget × Byte) := none
  /-- The file register read. -/
  read : Option FileTarget := none
  /-- The flags computed. -/
  z : Option Bool := none
  dc : Option Bool := none
  c : Option Bool := none
  /-- The following instruction is passed over. -/
  skip : Bool := false

/-- The byte stored to one target. -/
def Change.storedTo (x : Change) (t : FileTarget) : Option Byte :=
  match x.store with
  | some (u, v) => if u = t then some v else none
  | none => none

/-- The device accesses the platform sees, newest first: the write, before it the read. -/
def Change.deviceAccesses (x : Change) (s : State) : List DeviceAccess :=
  (match x.store with
    | some (.device g, v) => [.write g v]
    | _ => []) ++
  (match x.read with
    | some (.device g) => [.read g (Config.freeByte s.draws)]
    | _ => [])

/-- The free values drawn: one for a device read. -/
def Change.drawsUsed (x : Change) : Nat :=
  match x.read with
  | some (.device _) => 1
  | _ => 0

/-- `t` is `s` after the change `x`, in every field. A store to PCL takes PCLATH along (10_state.md
R13), one to STATUS leaves TO and PD alone (R16), and a computed flag wins over the data (R17). -/
structure Does (x : Change) (s t : State) : Prop where
  w : t.w = x.w.getD s.w
  pc : t.pc = ((x.storedTo .pcl).elim s.pc fun v => s.pclath ++ v) + (if x.skip then 1#13 else 0#13)
  banks : t.status.extractLsb' 5 3 = ((x.storedTo .status).getD s.status).extractLsb' 5 3
  timeOut : t.timeOut = s.timeOut
  powerDown : t.powerDown = s.powerDown
  zero : t.zero = x.z.getD (((x.storedTo .status).getD s.status).getLsbD 2)
  digitCarry : t.digitCarry = x.dc.getD (((x.storedTo .status).getD s.status).getLsbD 1)
  carry : t.carry = x.c.getD (((x.storedTo .status).getD s.status).getLsbD 0)
  pclath : t.pclath = (x.storedTo .pclath).elim s.pclath fun v => v.extractLsb' 0 5
  intcon : t.intcon = (x.storedTo .intcon).getD s.intcon
  fsr : t.fsr = (x.storedTo .fsr).getD s.fsr
  ram : ∀ c, t.ramByte c = (x.storedTo (.ram c)).getD (s.ramByte c)
  deviceLog : t.deviceLog = x.deviceAccesses s ++ s.deviceLog
  draws : t.draws = s.draws + x.drawsUsed
  stack : t.stack = s.stack
  ring : t.ring = s.ring
  code : t.code = s.code
  asleep : t.asleep = s.asleep
  wdt : t.wdt = s.wdt
  irq : t.irq = s.irq
  cfg : t.cfg = s.cfg
  env : t.env = s.env
  powerUps : t.powerUps = s.powerUps

end Sys2Proof.Machine
end

