-- ==== Sys2Proof/Certificates/Slice0/Obligations.lean ====
section
/-! DEFINITION. The statements for the provers, and the words they are said in. Where a statement
reads a free value (`Config.freeByte`, `Config.freePc`) it holds for every value of it. -/

namespace Sys2Proof.Claims

open Sys2Proof.Machine

/-- What a file register instruction does with the byte it reads. -/
structure FileRule where
  result : Byte := 0#8
  z : Option Bool := none
  dc : Option Bool := none
  c : Option Bool := none
  /-- For the instructions that may skip: whether they do. -/
  skip : Option Bool := none

/-- `i` reads `f` once, delivers the result to `d` (nowhere where `d` is none), sets the flags of the
rule and no other, and changes nothing else; at an unimplemented address it stops; its cycles are those
of 70_reset_and_hazards.md R191. -/
def FollowsFileRule (i : Instr) (f : FileField) (d : Option Dest) (s : State) (rule : Byte → FileRule) : Prop :=
  (∀ a, fileTarget f s = .unimplemented a → exec i s = .fault (.unmappedFile a)) ∧
  (Mapped f s →
    (∃ t, exec i s = .next t ∧
      Does
        { w := if d = some .w then some (rule (valueAt (fileTarget f s) s)).result else none
          store := if d = some .f then some (fileTarget f s, (rule (valueAt (fileTarget f s) s)).result) else none
          read := some (fileTarget f s)
          z := (rule (valueAt (fileTarget f s) s)).z
          dc := (rule (valueAt (fileTarget f s) s)).dc
          c := (rule (valueAt (fileTarget f s) s)).c
          skip := (rule (valueAt (fileTarget f s) s)).skip.getD false } s t) ∧
    cycles i s =
      match (rule (valueAt (fileTarget f s) s)).skip with
      | some b => if b then 2 else 1
      | none => if d = some .f ∧ fileTarget f s = .pcl then 2 else 1)

/-- `i` writes `v` to `f` without reading it, sets Z if `z` says so, and changes nothing else. -/
def FollowsWriteRule (i : Instr) (f : FileField) (s : State) (v : Byte) (z : Option Bool) : Prop :=
  (∀ a, fileTarget f s = .unimplemented a → exec i s = .fault (.unmappedFile a)) ∧
  (Mapped f s →
    (∃ t, exec i s = .next t ∧ Does { store := some (fileTarget f s, v), z := z } s t) ∧
    cycles i s = if fileTarget f s = .pcl then 2 else 1)

/-- `i` does the change `x`, and nothing else, in one cycle. -/
def FollowsRegisterRule (i : Instr) (s : State) (x : Change) : Prop :=
  (∃ t, exec i s = .next t ∧ Does x s t) ∧ cycles i s = 1

/-- The destination bit of a word (30_encoding.md R61). -/
def dBit (d : Dest) : BitVec 1 :=
  match d with
  | .w => 0#1
  | .f => 1#1

/-- The don't-care bits of an instruction's word (30_encoding.md R67). -/
def dontCares (i : Instr) : CodeWord :=
  match i with
  | .nop => 0x0060#14
  | .clrw => 0x007F#14
  | .addlw _ | .sublw _ => 0x0100#14
  | .movlw _ | .retlw _ => 0x0300#14
  | .addwf _ _ | .andwf _ _ | .clrf _ | .comf _ _ | .decf _ _ | .decfsz _ _ | .incf _ _
  | .incfsz _ _ | .iorwf _ _ | .movf _ _ | .movwf _ | .rlf _ _ | .rrf _ _ | .subwf _ _
  | .swapf _ _ | .xorwf _ _ | .bcf _ _ | .bsf _ _ | .btfsc _ _ | .btfss _ _ | .andlw _ | .call _
  | .clrwdt | .goto _ | .iorlw _ | .retfie | .ret | .sleep | .xorlw _ => 0x0000#14

/-- The unassigned words (30_encoding.md R68). -/
def Unassigned (w : CodeWord) : Prop :=
  (w.toNat < 0x80 ∧ w.toNat ∉ [0x00, 0x20, 0x40, 0x60, 0x08, 0x09, 0x63, 0x64]) ∨
  (0x3B00 ≤ w.toNat ∧ w.toNat ≤ 0x3BFF)

/-- It is the CPU's turn at `s`, and `u` is `s` with that turn taken off the schedule. -/
def CpuTurn (s u : State) : Prop :=
  (s.env = [] ∧ u = s) ∨ ∃ rest, s.env = .cpu :: rest ∧ u = { s with env := rest }

/-- `s` after fetch: PC past the instruction, one more step since the watchdog was cleared. -/
def fetched (s : State) : State := { s with pc := s.pc + 1#13, wdt := s.wdt + 1 }

/-- The CPU's turn at `s` completes instruction `i` with the state `t`, before the interrupt test. -/
def Completes (s : State) (i : Instr) (t : State) : Prop :=
  ∃ u, CpuTurn s u ∧ s.asleep = false ∧ decode (s.progRead s.pc) = .ok i ∧ exec i (fetched u) = .next t

/-- The value in one slot of the circular stack. -/
def slot (r : Ring) (j : BitVec 3) : Option Pc := r.slots.get ⟨j.toNat, j.isLt⟩

/-- What external and watchdog reset share (70_reset_and_hazards.md R180). -/
structure WarmReset (s t : State) : Prop where
  pc : t.pc = 0x0000#13
  irp : t.irp = 0#1
  rp : t.rp = 0#2
  pclath : t.pclath = 0#5
  gie : t.gie = false
  stack : t.stack = []
  ring : ∀ j, t.ring.ptr = 0#3 ∧ slot t.ring j = none
  asleep : t.asleep = false
  wdt : t.wdt = 0
  zero : t.zero = s.zero
  digitCarry : t.digitCarry = s.digitCarry
  carry : t.carry = s.carry
  w : t.w = s.w
  fsr : t.fsr = s.fsr
  ram : ∀ c, t.ramByte c = s.ramByte c
  code : t.code = s.code
  irq : t.irq = s.irq
  cfg : t.cfg = s.cfg
  powerUps : t.powerUps = s.powerUps
  deviceLog : t.deviceLog = s.deviceLog

end Sys2Proof.Claims

open Sys2Proof Sys2Proof.Machine Sys2Proof.Claims

/-- The words of the source's disassembly exercise decode to the instructions it stands for
(95_test_vectors.md section 1.1, 30_encoding.md section 2). -/
def Obligations.SourceListingDecodes : Prop :=
  decode 0x2805#14 = .ok (.goto 0x005#11) ∧ decode 0x3FFF#14 = .ok (.addlw 0xFF#8) ∧
  decode 0x1383#14 = .ok (.bcf 0x03#7 7#3) ∧ decode 0x0180#14 = .ok (.clrf 0x00#7) ∧
  decode 0x2808#14 = .ok (.goto 0x008#11) ∧ decode 0x280B#14 = .ok (.goto 0x00B#11) ∧
  decode 0x0A8C#14 = .ok (.incf 0x0C#7 .f) ∧ decode 0x0009#14 = .ok .retfie ∧
  decode 0x1303#14 = .ok (.bcf 0x03#7 6#3) ∧ decode 0x178B#14 = .ok (.bsf 0x0B#7 7#3) ∧
  decode 0x0068#14 = .error (.unassignedControl 0x68#7) ∧ decode 0x3B00#14 = .error (.unassignedLiteral 0x00#8)

/-- Decoding the word of any instruction gives the instruction back (30_encoding.md section 2,
30_encoding.md section 3, 30_encoding.md section 4). -/
def Obligations.DecodeInvertsEncode : Prop :=
  ∀ i : Instr, decode (encode i) = .ok i

/-- A decoder accepts any value of an x bit, and the canonical word has 0 in every x bit (R67). -/
def Obligations.EncodingADecodedWordClearsItsDontCares : Prop :=
  (∀ (w : CodeWord) (i : Instr), decode w = .ok i → encode i = w &&& ~~~(dontCares i)) ∧
  (∀ (i : Instr) (x : CodeWord), decode (encode i ||| (x &&& dontCares i)) = .ok i)

/-- A word decodes to an instruction exactly when it meets the mask and match of the instruction's
table row (30_encoding.md section 2, 30_encoding.md section 4). -/
def Obligations.DecoderAgreesWithTheOpcodeTable : Prop :=
  (∀ (w : CodeWord) (i : Instr), decode w = .ok i → i.row.holds w = true) ∧
  (∀ (w : CodeWord) (i : Instr), i.row.holds w = true → ∃ j, decode w = .ok j ∧ j.row = i.row)

/-- The decoder rejects exactly the 376 unassigned words, and fetching one is the fault
ReservedInstruction (R68). -/
def Obligations.UnassignedWordsStopTheRun : Prop :=
  (∀ w : CodeWord, (∃ r, decode w = .error r) ↔ Unassigned w) ∧
  ((List.range 16384).filter fun n => match decode (BitVec.ofNat 14 n) with
    | .ok _ => false
    | .error _ => true).length = 376 ∧
  (∀ s u, CpuTurn s u → s.asleep = false → Unassigned (s.progRead s.pc) →
    step s = .fault (.reservedInstruction s.pc (s.progRead s.pc)))

/-- The reset state has the power-up values the spec gives (10_state.md section 9,
70_reset_and_hazards.md section 1). -/
def Obligations.PowerUpStateOfTheSpec : Prop :=
  State.reset.pc = 0x0000#13 ∧ State.reset.irp = 0#1 ∧ State.reset.rp = 0#2 ∧
  State.reset.timeOut = true ∧ State.reset.powerDown = true ∧ State.reset.pclath = 0#5 ∧
  State.reset.gie = false ∧ State.reset.stack = [] ∧ (∀ j, slot State.reset.ring j = none) ∧
  State.reset.ring.ptr = 0#3 ∧ State.reset.asleep = false ∧ State.reset.wdt = 0 ∧
  State.reset.cfg = Config.default ∧ State.reset.cfg.wf = true

/-- The reset state is well-formed (10_state.md section 9, 92_eei_decisions.md). -/
def Obligations.WellFormedAtReset : Prop :=
  State.reset.Wf

/-- Every step keeps the well-formedness of the state (10_state.md section 4, 10_state.md section 7,
20_memory.md section 1). -/
def Obligations.StepKeepsWellFormedness : Prop :=
  ∀ s t, s.Wf → step s = .next t → t.Wf

/-- No step changes the code image or the configuration, so fetch always returns the loaded image
(20_memory.md section 5, 20_memory.md section 1, 00_scope.md section 4). -/
def Obligations.CodeAndConfigurationNeverChange : Prop :=
  ∀ s t, step s = .next t → t.code = s.code ∧ t.cfg = s.cfg ∧ ∀ a, t.progRead a = s.progRead a

/-- A step depends on no code word but the one at PC (20_memory.md section 1, 41_byte_oriented.md
section 1). -/
def Obligations.OnlyFetchReadsTheCode : Prop :=
  ∀ s m, ({ s with code := m } : State).progRead s.pc = s.progRead s.pc →
    (∀ t, step s = .next t → step { s with code := m } = .next { t with code := m }) ∧
    (∀ e, step s = .fault e → step { s with code := m } = .fault e) ∧
    (∀ r, step s ≠ .refused r)

/-- The direct address is the bank RP1:RP0 times 128 plus f, with the bank bits held when the
instruction starts (R42). -/
def Obligations.DirectAddressTakesTheBankFromStatus : Prop :=
  (∀ f s, (dataEA f s).toNat = 128 * (s.status.toNat / 32 % 4) + f.toNat) ∧
  (∀ f (b : BitNum) s, fileTarget f s = .status →
    (∃ st : Byte, exec (.bsf f b) s = .next { s with status := st } ∧
      ∀ j, st.getLsbD j = ((decide (j = b.toNat ∧ j ≠ 3 ∧ j ≠ 4)) || s.status.getLsbD j)) ∧
    (∃ st : Byte, exec (.bcf f b) s = .next { s with status := st } ∧
      ∀ j, st.getLsbD j = (!(decide (j = b.toNat ∧ j ≠ 3 ∧ j ≠ 4)) && s.status.getLsbD j)))

/-- An access at ADDR_INDF goes to IRP : FSR, whatever RP1 and RP0 hold; INDF through itself reads
00h and ignores writes (R43). -/
def Obligations.IndirectAddressTakesIrpAndFsr : Prop :=
  ∀ s, (indEA s).toNat = 256 * (s.status.toNat / 128) + s.fsr.toNat ∧
    ∀ a, bankOffset a = s.cfg.addrIndf →
      (bankOffset (indEA s) ≠ s.cfg.addrIndf →
        dataRead a s = dataRead (indEA s) s ∧ ∀ v, dataWrite a v s = dataWrite (indEA s) v s) ∧
      (bankOffset (indEA s) = s.cfg.addrIndf →
        dataRead a s = .next (0#8, s) ∧ ∀ v, dataWrite a v s = .next s)

/-- A data read dispatches on the offset in the bank as R44 says (20_memory.md section 1,
10_state.md section 2, 92_eei_decisions.md D1). -/
def Obligations.DataReadFindsTheCoreRegistersInEveryBank : Prop :=
  ∀ a s, s.cfg.wf = true →
    (bankOffset a = s.cfg.addrPcl → dataRead a s = .next (BitVec.ofNat 8 s.pc.toNat, s)) ∧
    (bankOffset a = 0x03#7 → dataRead a s = .next (s.status, s)) ∧
    (bankOffset a = s.cfg.addrFsr → dataRead a s = .next (s.fsr, s)) ∧
    (bankOffset a = s.cfg.addrPclath → dataRead a s = .next (BitVec.ofNat 8 s.pclath.toNat, s)) ∧
    (bankOffset a = s.cfg.addrIntcon → dataRead a s = .next (s.intcon, s)) ∧
    (bankOffset a ∉ s.cfg.coreOffsets →
      dataRead a s =
        match fileMapEntry s.cfg.fileMap a.toNat with
        | .ram c => .next (s.ramByte c, s)
        | .device g => .next (Config.freeByte s.draws,
            { s with draws := s.draws + 1, deviceLog := .read g (Config.freeByte s.draws) :: s.deviceLog })
        | .unimplemented => .fault (.unmappedFile a))

/-- A data write dispatches on the offset in the bank as R45 says and changes nothing else
(20_memory.md section 1, 10_state.md section 2, 10_state.md section 3, 92_eei_decisions.md D1). -/
def Obligations.DataWriteReachesTheCoreRegistersInEveryBank : Prop :=
  ∀ a v s, s.cfg.wf = true →
    (bankOffset a = s.cfg.addrPcl →
      dataWrite a v s = .next { s with pc := BitVec.ofNat 13 (256 * s.pclath.toNat + v.toNat) }) ∧
    (bankOffset a = 0x03#7 →
      ∃ st : Byte, dataWrite a v s = .next { s with status := st } ∧
        ∀ i, st.getLsbD i = if i = 3 ∨ i = 4 then s.status.getLsbD i else v.getLsbD i) ∧
    (bankOffset a = s.cfg.addrFsr → dataWrite a v s = .next { s with fsr := v }) ∧
    (bankOffset a = s.cfg.addrPclath →
      dataWrite a v s = .next { s with pclath := BitVec.ofNat 5 (v.toNat % 32) }) ∧
    (bankOffset a = s.cfg.addrIntcon → dataWrite a v s = .next { s with intcon := v }) ∧
    (bankOffset a ∉ s.cfg.coreOffsets →
      match fileMapEntry s.cfg.fileMap a.toNat with
      | .ram c => ∃ m, dataWrite a v s = .next { s with data := m } ∧
          ∀ c', ({ s with data := m } : State).ramByte c' = if c' = c then v else s.ramByte c'
      | .device g => dataWrite a v s = .next { s with deviceLog := .write g v :: s.deviceLog }
      | .unimplemented => dataWrite a v s = .fault (.unmappedFile a))

/-- TO and PD are written only by CLRWDT, SLEEP, a watchdog time-out and power-up (R21). -/
def Obligations.TimeOutAndPowerDownWrittenOnlyByEvents : Prop :=
  (∀ i s t, exec i s = .next t → i ≠ .clrwdt → i ≠ .sleep →
    t.timeOut = s.timeOut ∧ t.powerDown = s.powerDown) ∧
  (∀ s t, exec .clrwdt s = .next t → t.timeOut = true ∧ t.powerDown = true) ∧
  (∀ s t, exec .sleep s = .next t → t.timeOut = true ∧ t.powerDown = false) ∧
  (∀ s, s.cfg.wdtEnabled = true → 1 ≤ s.wdt → (applyEvent .watchdogTimeout s).timeOut = false) ∧
  (∀ s, (applyEvent .powerUp s).timeOut = true ∧ (applyEvent .powerUp s).powerDown = true) ∧
  (∀ e s, e ≠ .watchdogTimeout → e ≠ .powerUp →
    (applyEvent e s).timeOut = s.timeOut ∧ (applyEvent e s).powerDown = s.powerDown) ∧
  (∀ s t, interruptCheck s = .next t → t.timeOut = s.timeOut ∧ t.powerDown = s.powerDown)

/-- Z, DC and C change only by the instructions listed for them or by a store to STATUS (10_state.md
section 3). -/
def Obligations.FlagsChangeOnlyWhereTheTableListsThem : Prop :=
  ∀ i s t, exec i s = .next t → storesTo i s ≠ some .status →
    (writesZero i = false → t.zero = s.zero) ∧
    (writesCarry i = false → t.carry = s.carry) ∧
    (writesDigitCarry i = false → t.digitCarry = s.digitCarry) ∧
    t.irp = s.irp ∧ t.rp = s.rp

/-- W, PCLATH, FSR, INTCON and every RAM cell change only as an instruction's destination
(10_state.md section 1, 10_state.md section 2, 10_state.md section 5, 10_state.md section 7). -/
def Obligations.RegistersAndRamChangeOnlyAsDestinations : Prop :=
  ∀ i s t, exec i s = .next t →
    (writesW i = false → t.w = s.w) ∧
    (storesTo i s ≠ some .pclath → t.pclath = s.pclath) ∧
    (storesTo i s ≠ some .fsr → t.fsr = s.fsr) ∧
    (storesTo i s ≠ some .intcon → i ≠ .retfie → t.intcon = s.intcon) ∧
    (∀ c, storesTo i s ≠ some (.ram c) → t.ramByte c = s.ramByte c)

/-- Among the instructions only CALL, RETURN, RETLW and RETFIE change the return stack; none reads
or writes it as data (10_state.md section 4, 10_state.md section 8, 20_memory.md section 1,
00_scope.md section 5). -/
def Obligations.OnlyCallsAndReturnsTouchTheStack : Prop :=
  (∀ i s t, exec i s = .next t →
    (¬ usesStack i → t.stack = s.stack ∧ t.ring = s.ring) ∧
    t.irq = s.irq ∧ t.env = s.env ∧ t.cfg = s.cfg ∧ t.powerUps = s.powerUps ∧
    (i ≠ .sleep → t.asleep = s.asleep) ∧ (i ≠ .sleep → i ≠ .clrwdt → t.wdt = s.wdt)) ∧
  (∀ i s l r, ¬ usesStack i →
    (∀ t, exec i s = .next t →
      exec i { s with stack := l, ring := r } = .next { t with stack := l, ring := r }) ∧
    (∀ e, exec i s = .fault e → exec i { s with stack := l, ring := r } = .fault e))

/-- A pop after a push gives the pushed address and the stack as it was (10_state.md section 4). -/
def Obligations.ReturnStackIsLastInFirstOut : Prop :=
  ∀ v s t, push v s = .next t →
    ∃ u, pop t = .next (v, u) ∧ u.stack = s.stack ∧ u.ring.ptr = s.ring.ptr ∧
      (∀ j, j ≠ s.ring.ptr → slot u.ring j = slot s.ring j) ∧ u = { s with ring := u.ring }

/-- The ninth push stops the run under fault and overwrites the oldest level under wrap; only CALL
and interrupt entry push, only the returns pop (10_state.md section 4, 60_exceptions.md section
2). -/
def Obligations.StackOfEightLevelsStopsUnderTheFaultPolicy : Prop :=
  (∀ v s, s.cfg.stackPolicy = .fault → s.stack.length < 8 →
    push v s = .next { s with stack := v :: s.stack }) ∧
  (∀ v s, s.cfg.stackPolicy = .fault → 8 ≤ s.stack.length → push v s = .fault (.stackOverflow v)) ∧
  (∀ v s, s.cfg.stackPolicy = .wrap → push v s = .next { s with ring := ringPush s.ring v }) ∧
  (∀ (r : Ring) v j, slot (ringPush r v) j = (if j = r.ptr then some v else slot r j) ∧
    (ringPush r v).ptr = r.ptr + 1#3) ∧
  (∀ (r : Ring) a b (l : List Pc), l.length = 7 → slot ((a :: l ++ [b]).foldl ringPush r) r.ptr = some b) ∧
  (∀ i s t, exec i s = .next t →
    (s.stack.length < t.stack.length ∨ t.ring.ptr = s.ring.ptr + 1#3 → ∃ k, i = .call k) ∧
    (t.stack.length < s.stack.length ∨ t.ring.ptr = s.ring.ptr - 1#3 →
      i = .ret ∨ i = .retfie ∨ ∃ k, i = .retlw k) ∧
    (¬ usesStack i → t.stack = s.stack ∧ t.ring = s.ring)) ∧
  (∀ s t, interruptCheck s = .next t →
    s.stack.length ≤ t.stack.length ∧ t.ring.ptr ≠ s.ring.ptr - 1#3 ∧
    (¬ (s.irq = true ∧ s.gie = true ∧ s.asleep = false) → t.stack = s.stack ∧ t.ring = s.ring))

/-- Pop takes the newest level; of an empty stack it stops under fault and gives a stale or free
value under wrap (10_state.md section 4). -/
def Obligations.PopGivesTheNewestLevel : Prop :=
  (∀ s v rest, s.cfg.stackPolicy = .fault → s.stack = v :: rest →
    pop s = .next (v, { s with stack := rest })) ∧
  (∀ s, s.cfg.stackPolicy = .fault → s.stack = [] → pop s = .fault .stackUnderflow) ∧
  (∀ s, s.cfg.stackPolicy = .wrap →
    pop s =
      match slot s.ring (s.ring.ptr - 1#3) with
      | some v => .next (v, { s with ring := ringPop s.ring v })
      | none => .next (Config.freePc s.draws,
          { s with ring := ringPop s.ring (Config.freePc s.draws), draws := s.draws + 1 })) ∧
  (∀ (r : Ring) v, (ringPop r v).ptr = r.ptr - 1#3 ∧
    ∀ j, slot (ringPop r v) j = if j = r.ptr - 1#3 then some v else slot r j)

/-- ADDWF: result, carry, digit carry, zero, destination and frame (R103). -/
def Obligations.AddwfAddsWAndFileRegister : Prop :=
  (∀ f d, decode (0b000111#6 ++ dBit d ++ f) = .ok (.addwf f d)) ∧
  (∀ f d s, FollowsFileRule (.addwf f d) f (some d) s fun v => 
    { result := BitVec.ofNat 8 (s.w.toNat + v.toNat)
      z := some (decide ((s.w.toNat + v.toNat) % 256 = 0))
      dc := some (decide (16 ≤ s.w.toNat % 16 + v.toNat % 16))
      c := some (decide (256 ≤ s.w.toNat + v.toNat)) })

/-- SUBWF: result, borrow flags with reversed polarity, zero, destination and frame (R118). -/
def Obligations.SubwfSubtractsWFromFileRegister : Prop :=
  (∀ f d, decode (0b000010#6 ++ dBit d ++ f) = .ok (.subwf f d)) ∧
  (∀ f d s, FollowsFileRule (.subwf f d) f (some d) s fun v => 
    { result := BitVec.ofNat 8 (v.toNat + 256 - s.w.toNat)
      z := some (decide (v = s.w))
      dc := some (decide (s.w.toNat % 16 ≤ v.toNat % 16))
      c := some (decide (s.w.toNat ≤ v.toNat)) })

/-- ANDWF, IORWF, XORWF: result, Z alone, destination and frame (R104, R112, R120). -/
def Obligations.AndIorXorOfWAndFileRegister : Prop :=
  (∀ f d, decode (0b000101#6 ++ dBit d ++ f) = .ok (.andwf f d)) ∧
  (∀ f d s, FollowsFileRule (.andwf f d) f (some d) s fun v => { result := s.w &&& v, z := some (decide (s.w &&& v = 0#8)) }) ∧
  (∀ f d, decode (0b000100#6 ++ dBit d ++ f) = .ok (.iorwf f d)) ∧
  (∀ f d s, FollowsFileRule (.iorwf f d) f (some d) s fun v => { result := s.w ||| v, z := some (decide (s.w = 0#8 ∧ v = 0#8)) }) ∧
  (∀ f d, decode (0b000110#6 ++ dBit d ++ f) = .ok (.xorwf f d)) ∧
  (∀ f d s, FollowsFileRule (.xorwf f d) f (some d) s fun v => { result := s.w ^^^ v, z := some (decide (v = s.w)) })

/-- COMF, DECF, INCF, MOVF: result, Z alone, destination and frame (R107, R108, R110, R113). -/
def Obligations.IncrementDecrementComplementMove : Prop :=
  (∀ f d, decode (0b001001#6 ++ dBit d ++ f) = .ok (.comf f d)) ∧
  (∀ f d s, FollowsFileRule (.comf f d) f (some d) s fun v => { result := BitVec.ofNat 8 (255 - v.toNat), z := some (decide (v = 0xFF#8)) }) ∧
  (∀ f d, decode (0b000011#6 ++ dBit d ++ f) = .ok (.decf f d)) ∧
  (∀ f d s, FollowsFileRule (.decf f d) f (some d) s fun v => { result := BitVec.ofNat 8 (v.toNat + 255), z := some (decide (v = 0x01#8)) }) ∧
  (∀ f d, decode (0b001010#6 ++ dBit d ++ f) = .ok (.incf f d)) ∧
  (∀ f d s, FollowsFileRule (.incf f d) f (some d) s fun v => { result := BitVec.ofNat 8 (v.toNat + 1), z := some (decide (v = 0xFF#8)) }) ∧
  (∀ f d, decode (0b001000#6 ++ dBit d ++ f) = .ok (.movf f d)) ∧
  (∀ f d s, FollowsFileRule (.movf f d) f (some d) s fun v => { result := v, z := some (decide (v = 0x00#8)) })

/-- DECFSZ, INCFSZ: result, no flag, skip exactly on a zero result (41_byte_oriented.md section 1,
41_byte_oriented.md section 2, 70_reset_and_hazards.md section 4). -/
def Obligations.DecfszAndIncfszSkipOnAZeroResult : Prop :=
  (∀ f d, decode (0b001011#6 ++ dBit d ++ f) = .ok (.decfsz f d)) ∧
  (∀ f d s, FollowsFileRule (.decfsz f d) f (some d) s fun v => { result := BitVec.ofNat 8 (v.toNat + 255), skip := some (decide (v = 0x01#8)) }) ∧
  (∀ f d, decode (0b001111#6 ++ dBit d ++ f) = .ok (.incfsz f d)) ∧
  (∀ f d s, FollowsFileRule (.incfsz f d) f (some d) s fun v => { result := BitVec.ofNat 8 (v.toNat + 1), skip := some (decide (v = 0xFF#8)) })

/-- RLF, RRF: the nine-bit rotations through C, C alone, destination and frame (R116, R117). -/
def Obligations.RotatesPassThroughCarry : Prop :=
  (∀ f d, decode (0b001101#6 ++ dBit d ++ f) = .ok (.rlf f d)) ∧
  (∀ f d s, FollowsFileRule (.rlf f d) f (some d) s fun v => 
    { result := BitVec.ofNat 8 (2 * v.toNat + s.carry.toNat), c := some (decide (128 ≤ v.toNat)) }) ∧
  (∀ f d, decode (0b001100#6 ++ dBit d ++ f) = .ok (.rrf f d)) ∧
  (∀ f d s, FollowsFileRule (.rrf f d) f (some d) s fun v => 
    { result := BitVec.ofNat 8 (v.toNat / 2 + 128 * s.carry.toNat), c := some (decide (v.toNat % 2 = 1)) })

/-- SWAPF: the nibbles exchanged, no flag, destination and frame (R119). -/
def Obligations.SwapfExchangesNibbles : Prop :=
  (∀ f d, decode (0b001110#6 ++ dBit d ++ f) = .ok (.swapf f d)) ∧
  (∀ f d s, FollowsFileRule (.swapf f d) f (some d) s fun v => { result := BitVec.ofNat 8 (16 * (v.toNat % 16) + v.toNat / 16) })

/-- CLRF stores 00h and sets Z; MOVWF stores W and sets no flag; neither reads the register (R105,
R114). -/
def Obligations.ClrfAndMovwfStoreWithoutReading : Prop :=
  (∀ f, decode (0b0000011#7 ++ f) = .ok (.clrf f)) ∧
  (∀ f s, FollowsWriteRule (.clrf f) f s 0x00#8 (some true)) ∧
  (∀ f, decode (0b0000001#7 ++ f) = .ok (.movwf f)) ∧
  (∀ f s, FollowsWriteRule (.movwf f) f s s.w none)

/-- CLRW clears W and sets Z; NOP changes nothing; their don't-care bits are ignored (R106, R115). -/
def Obligations.ClrwAndNopTouchNoFileRegister : Prop :=
  (∀ x : BitVec 7, decode (0b0000010#7 ++ x) = .ok .clrw) ∧
  (∀ s, FollowsRegisterRule .clrw s { w := some 0x00#8, z := some true }) ∧
  (∀ x : BitVec 2, decode (0b0000000#7 ++ x ++ 0b00000#5) = .ok .nop) ∧
  (∀ s, FollowsRegisterRule .nop s {})

/-- BCF and BSF read the byte, change one bit, and write the byte back (R122, R123). -/
def Obligations.BcfAndBsfRewriteTheWholeByte : Prop :=
  (∀ f b, decode (0b0100#4 ++ b ++ f) = .ok (.bcf f b)) ∧
  (∀ f b s, FollowsFileRule (.bcf f b) f (some .f) s fun v => { result := v &&& ~~~(1#8 <<< b.toNat) }) ∧
  (∀ f b, decode (0b0101#4 ++ b ++ f) = .ok (.bsf f b)) ∧
  (∀ f b s, FollowsFileRule (.bsf f b) f (some .f) s fun v => { result := v ||| (1#8 <<< b.toNat) })

/-- BTFSC skips when the bit is 0, BTFSS when it is 1; neither writes (R124, R125). -/
def Obligations.BitTestsSkipAndWriteNothing : Prop :=
  (∀ f b, decode (0b0110#4 ++ b ++ f) = .ok (.btfsc f b)) ∧
  (∀ f b s, FollowsFileRule (.btfsc f b) f none s fun v =>
    { skip := some (decide (v.toNat / 2 ^ b.toNat % 2 = 0)) }) ∧
  (∀ f b, decode (0b0111#4 ++ b ++ f) = .ok (.btfss f b)) ∧
  (∀ f b s, FollowsFileRule (.btfss f b) f none s fun v =>
    { skip := some (decide (v.toNat / 2 ^ b.toNat % 2 = 1)) })

/-- ADDLW and SUBLW: result, C, DC, Z and frame (R131, R135). -/
def Obligations.AddlwAndSublwOnWAndLiteral : Prop :=
  (∀ (x : BitVec 1) k, decode (0b11111#5 ++ x ++ k) = .ok (.addlw k)) ∧
  (∀ k s, FollowsRegisterRule (.addlw k) s
    { w := some (BitVec.ofNat 8 (s.w.toNat + k.toNat))
      z := some (decide ((s.w.toNat + k.toNat) % 256 = 0))
      dc := some (decide (16 ≤ s.w.toNat % 16 + k.toNat % 16))
      c := some (decide (256 ≤ s.w.toNat + k.toNat)) }) ∧
  (∀ (x : BitVec 1) k, decode (0b11110#5 ++ x ++ k) = .ok (.sublw k)) ∧
  (∀ k s, FollowsRegisterRule (.sublw k) s
    { w := some (BitVec.ofNat 8 (k.toNat + 256 - s.w.toNat))
      z := some (decide (k = s.w))
      dc := some (decide (s.w.toNat % 16 ≤ k.toNat % 16))
      c := some (decide (s.w.toNat ≤ k.toNat)) })

/-- ANDLW, IORLW, XORLW: result and Z alone; MOVLW: no flag (R132, R133, R134, R136). -/
def Obligations.LogicAndMoveOnWAndLiteral : Prop :=
  (∀ k, decode (0b111001#6 ++ k) = .ok (.andlw k)) ∧
  (∀ k s, FollowsRegisterRule (.andlw k) s { w := some (s.w &&& k), z := some (decide (s.w &&& k = 0#8)) }) ∧
  (∀ k, decode (0b111000#6 ++ k) = .ok (.iorlw k)) ∧
  (∀ k s, FollowsRegisterRule (.iorlw k) s { w := some (s.w ||| k), z := some (decide (s.w = 0#8 ∧ k = 0#8)) }) ∧
  (∀ k, decode (0b111010#6 ++ k) = .ok (.xorlw k)) ∧
  (∀ k s, FollowsRegisterRule (.xorlw k) s { w := some (s.w ^^^ k), z := some (decide (k = s.w)) }) ∧
  (∀ (x : BitVec 2) k, decode (0b1100#4 ++ x ++ k) = .ok (.movlw k)) ∧
  (∀ k s, FollowsRegisterRule (.movlw k) s { w := some k })

/-- GOTO and CALL go to PCLATH<4:3> : k; GOTO changes nothing but PC (R141, R139). -/
def Obligations.GotoTakesItsPageFromPclath : Prop :=
  (∀ k, decode (0b101#3 ++ k) = .ok (.goto k)) ∧
  (∀ k s, exec (.goto k) s =
    .next { s with pc := BitVec.ofNat 13 (2048 * (s.pclath.toNat / 8) + k.toNat) } ∧ cycles (.goto k) s = 2) ∧
  (∀ k s t, exec (.call k) s = .next t →
    t.pc = BitVec.ofNat 13 (2048 * (s.pclath.toNat / 8) + k.toNat) ∧ t.pclath = s.pclath) ∧
  State.reset.pclath = 0#5

/-- CALL pushes the 13-bit address after it and goes to its target (R140). -/
def Obligations.CallPushesTheAddressAfterIt : Prop :=
  (∀ k, decode (0b100#3 ++ k) = .ok (.call k)) ∧
  (∀ k s, s.cfg.stackPolicy = .fault → s.stack.length < 8 →
    exec (.call k) s = .next { s with
      stack := s.pc :: s.stack, pc := BitVec.ofNat 13 (2048 * (s.pclath.toNat / 8) + k.toNat) }) ∧
  (∀ k s, s.cfg.stackPolicy = .fault → 8 ≤ s.stack.length →
    exec (.call k) s = .fault (.stackOverflow s.pc)) ∧
  (∀ k s, s.cfg.stackPolicy = .wrap →
    exec (.call k) s = .next { s with
      ring := ringPush s.ring s.pc, pc := BitVec.ofNat 13 (2048 * (s.pclath.toNat / 8) + k.toNat) }) ∧
  (∀ k s, cycles (.call k) s = 2) ∧
  (∀ s u k, CpuTurn s u → s.asleep = false → s.pc = 0x1FFF#13 → decode (s.progRead 0x1FFF#13) = .ok (.call k) →
    (s.cfg.stackPolicy = .fault → s.stack.length < 8 →
      ∃ t, Completes s (.call k) t ∧ (¬ (s.irq = true ∧ s.gie = true) → step s = .next t) ∧
        t.stack = 0x0000#13 :: s.stack ∧ t.pc = BitVec.ofNat 13 (2048 * (s.pclath.toNat / 8) + k.toNat)) ∧
    (s.cfg.stackPolicy = .fault → 8 ≤ s.stack.length → step s = .fault (.stackOverflow 0x0000#13)) ∧
    (s.cfg.stackPolicy = .wrap →
      ∃ t, Completes s (.call k) t ∧ (¬ (s.irq = true ∧ s.gie = true) → step s = .next t) ∧
        t.ring = ringPush s.ring 0x0000#13 ∧
        t.pc = BitVec.ofNat 13 (2048 * (s.pclath.toNat / 8) + k.toNat)))

/-- RETURN, RETLW, RETFIE pop PC; RETLW loads W, RETFIE sets GIE (44_control_operations.md,
10_state.md section 4, 60_exceptions.md section 2). -/
def Obligations.ReturnsPopThePc : Prop :=
  decode 0b00000000001000#14 = .ok .ret ∧ decode 0b00000000001001#14 = .ok .retfie ∧
  (∀ (x : BitVec 2) k, decode (0b1101#4 ++ x ++ k) = .ok (.retlw k)) ∧
  (∀ s v rest, s.cfg.stackPolicy = .fault → s.stack = v :: rest →
    exec .ret s = .next { s with stack := rest, pc := v } ∧
    (∀ k, exec (.retlw k) s = .next { s with stack := rest, pc := v, w := k }) ∧
    exec .retfie s = .next { s with stack := rest, pc := v, intcon := s.intcon ||| 0x80#8 }) ∧
  (∀ s, s.cfg.stackPolicy = .fault → s.stack = [] →
    exec .ret s = .fault .stackUnderflow ∧ (∀ k, exec (.retlw k) s = .fault .stackUnderflow) ∧
    exec .retfie s = .fault .stackUnderflow) ∧
  (∀ s v, s.cfg.stackPolicy = .wrap → slot s.ring (s.ring.ptr - 1#3) = some v →
    exec .ret s = .next { s with ring := ringPop s.ring v, pc := v } ∧
    (∀ k, exec (.retlw k) s = .next { s with ring := ringPop s.ring v, pc := v, w := k }) ∧
    exec .retfie s = .next { s with ring := ringPop s.ring v, pc := v, intcon := s.intcon ||| 0x80#8 }) ∧
  (∀ s v, s.cfg.stackPolicy = .wrap → slot s.ring (s.ring.ptr - 1#3) = none → v = Config.freePc s.draws →
    exec .ret s = .next { s with ring := ringPop s.ring v, pc := v, draws := s.draws + 1 } ∧
    (∀ k, exec (.retlw k) s = .next { s with ring := ringPop s.ring v, pc := v, w := k, draws := s.draws + 1 }) ∧
    exec .retfie s = .next { s with
      ring := ringPop s.ring v, pc := v, intcon := s.intcon ||| 0x80#8, draws := s.draws + 1 }) ∧
  (∀ s k, cycles .ret s = 2 ∧ cycles .retfie s = 2 ∧ cycles (.retlw k) s = 2)

/-- CLRWDT and SLEEP clear the watchdog count and set TO and PD; SLEEP stops the CPU (R145, R146). -/
def Obligations.ClrwdtAndSleepSetTheirStatusBits : Prop :=
  decode 0b00000001100100#14 = .ok .clrwdt ∧ decode 0b00000001100011#14 = .ok .sleep ∧
  (∀ s, exec .clrwdt s = .next { s with wdt := 0, status := (s.status &&& 0xE7#8) ||| 0x18#8 }) ∧
  (∀ s, exec .sleep s = .next { s with
    wdt := 0, status := (s.status &&& 0xE7#8) ||| 0x10#8, asleep := true }) ∧
  (∀ s, cycles .clrwdt s = 1 ∧ cycles .sleep s = 1)

/-- A step of the awake CPU runs the fetched instruction past its address and then makes the
interrupt test (00_scope.md section 6, 10_state.md section 2, 60_exceptions.md section 2,
60_exceptions.md section 7, 00_scope.md section 5). -/
def Obligations.StepRunsTheDecodedInstruction : Prop :=
  (∀ s u i, CpuTurn s u → s.asleep = false → decode (s.progRead s.pc) = .ok i →
    step s =
      match exec i (fetched u) with
      | .next t =>
        if t.asleep = false ∧ t.irq = true ∧ t.gie = true then
          andThen (push t.pc { t with intcon := t.intcon &&& 0x7F#8 }) fun v => .next { v with pc := 0x0004#13 }
        else .next t
      | .fault e => .fault e
      | .refused r => .refused r) ∧
  (∀ s u, CpuTurn s u → s.asleep = true →
    step s = .next { u with asleep := !s.irq, wdt := s.wdt + 1 })

/-- Interrupt entry clears GIE, pushes PC, goes to 0004h, and saves nothing else (R162). -/
def Obligations.InterruptEntrySavesPcAndMasks : Prop :=
  ∀ s i t, Completes s i t →
    (t.irq = true → t.gie = true → t.asleep = false →
      (t.cfg.stackPolicy = .fault → t.stack.length < 8 →
        step s = .next { t with intcon := t.intcon &&& 0x7F#8, stack := t.pc :: t.stack, pc := 0x0004#13 }) ∧
      (t.cfg.stackPolicy = .fault → 8 ≤ t.stack.length → step s = .fault (.stackOverflow t.pc)) ∧
      (t.cfg.stackPolicy = .wrap →
        step s = .next { t with
          intcon := t.intcon &&& 0x7F#8, ring := ringPush t.ring t.pc, pc := 0x0004#13 })) ∧
    (¬ (t.irq = true ∧ t.gie = true ∧ t.asleep = false) → step s = .next t)

/-- RETFIE with IRQ still 1 enters the interrupt again without running the interrupted program
(60_exceptions.md section 2, 44_control_operations.md, 10_state.md section 4). -/
def Obligations.RetfieWithAPendingRequestReentersAtOnce : Prop :=
  (∀ s u, s.Wf → CpuTurn s u → s.asleep = false → s.irq = true → s.cfg.stackPolicy = .fault →
    s.stack ≠ [] → decode (s.progRead s.pc) = .ok .retfie →
    ∃ ic : Byte, step s = .next { u with pc := 0x0004#13, intcon := ic, wdt := s.wdt + 1 } ∧
      ∀ j, ic.getLsbD j = (decide (j ≠ 7) && s.intcon.getLsbD j)) ∧
  (∀ s u, CpuTurn s u → s.asleep = false → s.irq = true → s.cfg.stackPolicy = .wrap →
    decode (s.progRead s.pc) = .ok .retfie →
    ∃ ic : Byte, (∀ j, ic.getLsbD j = (decide (j ≠ 7) && s.intcon.getLsbD j)) ∧
      (∀ v, slot s.ring (s.ring.ptr - 1#3) = some v →
        step s = .next { u with pc := 0x0004#13, intcon := ic, wdt := s.wdt + 1 }) ∧
      (slot s.ring (s.ring.ptr - 1#3) = none →
        ∃ r : Ring, r.ptr = s.ring.ptr ∧
          (∀ j, slot r j = if j = s.ring.ptr - 1#3 then some (Config.freePc s.draws) else slot s.ring j) ∧
          step s = .next { u with
            pc := 0x0004#13, intcon := ic, wdt := s.wdt + 1, ring := r, draws := s.draws + 1 }))

/-- A sleeping CPU wakes by IRQ whatever GIE holds, or by a time-out with TO cleared, and else stays
(60_exceptions.md section 7, 60_exceptions.md section 8, 70_reset_and_hazards.md section 2). -/
def Obligations.SleepingCpuWakesByRequestOrTimeOut : Prop :=
  (∀ s u, CpuTurn s u → s.asleep = true → s.irq = true →
    step s = .next { u with asleep := false, wdt := s.wdt + 1 }) ∧
  (∀ s u, CpuTurn s u → s.asleep = true → s.irq = false → step s = .next { u with wdt := s.wdt + 1 }) ∧
  (∀ s rest, s.env = .environment .watchdogTimeout :: rest → s.asleep = true →
    s.cfg.wdtEnabled = true → 1 ≤ s.wdt →
    step s = .next { s with env := rest, asleep := false, status := s.status &&& 0xEF#8 }) ∧
  (∀ s, s.hangs = true → s.env.head? ≠ some (.environment .externalReset) →
    s.env.head? ≠ some (.environment .powerUp) →
    ∃ t, step s = .next t ∧ t.hangs = true ∧ t = { s with env := s.env.drop 1, wdt := t.wdt }) ∧
  (∀ s k, s.hangs = true → quietSchedule s.env = true →
    runSteps k s = .next { s with env := s.env.drop k, wdt := s.wdt + k })

/-- A watchdog time-out needs the enable and one step since the last clear; awake it resets, asleep
it wakes (60_exceptions.md section 8, 44_control_operations.md, 70_reset_and_hazards.md section
1). -/
def Obligations.WatchdogTimeOutOnlyWhenEnabledAndDue : Prop :=
  (∀ s rest, s.env = .environment .watchdogTimeout :: rest →
    (s.cfg.wdtEnabled = false ∨ s.wdt = 0 → step s = .next { s with env := rest }) ∧
    (s.cfg.wdtEnabled = true → 1 ≤ s.wdt → s.asleep = false →
      ∃ t, step s = .next t ∧ WarmReset s t ∧ t.timeOut = false) ∧
    (s.cfg.wdtEnabled = true → 1 ≤ s.wdt → s.asleep = true →
      ∃ t, step s = .next t ∧ t.asleep = false ∧ t.timeOut = false ∧ t.pc = s.pc)) ∧
  (∀ i s t, exec i s = .next t → t.wdt = if i = .clrwdt ∨ i = .sleep then 0 else s.wdt) ∧
  (∀ s u i t, CpuTurn s u → s.asleep = false → decode (s.progRead s.pc) = .ok i → step s = .next t →
    t.wdt = if i = .clrwdt ∨ i = .sleep then 0 else s.wdt + 1) ∧
  (∀ s u t, CpuTurn s u → s.asleep = true → step s = .next t → t.wdt = s.wdt + 1)

/-- External reset, watchdog reset and power-up leave the state the spec's table says
(70_reset_and_hazards.md section 1, 10_state.md section 9). -/
def Obligations.ResetKindsOfTheSpec : Prop :=
  (∀ s rest, s.env = .environment .externalReset :: rest →
    ∃ t, step s = .next t ∧ WarmReset s t ∧ t.timeOut = s.timeOut ∧ t.powerDown = s.powerDown ∧ t.env = rest) ∧
  (∀ s rest, s.env = .environment .watchdogTimeout :: rest → s.cfg.wdtEnabled = true → 1 ≤ s.wdt →
    s.asleep = false → ∃ t, step s = .next t ∧ WarmReset s t ∧ t.timeOut = false ∧ t.env = rest) ∧
  (∀ s rest, s.env = .environment .powerUp :: rest →
    ∃ t, step s = .next t ∧ t.env = rest ∧ t.pc = 0x0000#13 ∧ t.irp = 0#1 ∧ t.rp = 0#2 ∧
      t.timeOut = true ∧ t.powerDown = true ∧ t.pclath = 0#5 ∧ t.gie = false ∧ t.stack = [] ∧
      t.ring.ptr = 0#3 ∧ (∀ j, slot t.ring j = none) ∧ t.asleep = false ∧ t.wdt = 0 ∧
      t.code = s.code ∧ t.cfg = s.cfg ∧ t.irq = s.irq)

/-- The environment sets the request line, by level or as the OR of (flag and enable), and nothing
else (60_exceptions.md section 1, 00_scope.md section 5). -/
def Obligations.RequestLineIsTheOrOfEnabledFlags : Prop :=
  (∀ s rest b, s.env = .environment (.irqLine b) :: rest → step s = .next { s with env := rest, irq := b }) ∧
  (∀ s rest q, s.env = .environment (.irqSources q) :: rest →
    ∃ b, step s = .next { s with env := rest, irq := b } ∧
      (b = true ↔ (q.t0if = true ∧ q.t0ie = true) ∨ (q.intf = true ∧ q.inte = true) ∨
        (q.rbif = true ∧ q.rbie = true) ∨ (q.eeif = true ∧ q.eeie = true)))

/-- An end state stays one on every turn but a reset, and with only CPU turns to come for any number
of steps (70_reset_and_hazards.md section 2, 44_control_operations.md R141, 60_exceptions.md
section 8). -/
def Obligations.EndStateRepeatsForever : Prop :=
  (∀ s u, s.atEnd = true → CpuTurn s u →
    step s = .next { u with wdt := s.wdt + 1 } ∧ ({ u with wdt := s.wdt + 1 } : State).atEnd = true) ∧
  (∀ s e rest, s.atEnd = true → s.env = .environment e :: rest → e ≠ .externalReset → e ≠ .powerUp →
    (e = .watchdogTimeout → s.cfg.wdtEnabled = false ∨ s.wdt = 0) →
    ∃ t, step s = .next t ∧ t.atEnd = true ∧ t = { s with env := rest, irq := t.irq }) ∧
  (∀ s k, s.atEnd = true → quietSchedule s.env = true →
    runSteps k s = .next { s with env := s.env.drop k, wdt := s.wdt + k } ∧
    ({ s with env := s.env.drop k, wdt := s.wdt + k } : State).atEnd = true) ∧
  (∀ s t k, s.irqStaysLow = true → runSteps k s = .next t → t.irq = false)

/-- ADDWF PCL,F adds W to the low byte of the next address, drops the carry into C, and loads PCH
from PCLATH (R186). -/
def Obligations.ComputedJumpAddsWithinPcl : Prop :=
  ∀ s u f, CpuTurn s u → s.asleep = false → decode (s.progRead s.pc) = .ok (.addwf f .f) →
    fileTarget f s = .pcl →
    ∃ t, Completes s (.addwf f .f) t ∧
      t.pc.toNat = 256 * s.pclath.toNat + (s.pc.toNat + 1 + s.w.toNat) % 256 ∧
      (t.carry = true ↔ 256 ≤ (s.pc.toNat + 1) % 256 + s.w.toNat)

/-- MOVF PCL,W loads the low byte of the address of the next instruction (10_state.md section 2,
95_test_vectors.md section 1.2). -/
def Obligations.ReadOfPclGivesTheNextAddress : Prop :=
  (∀ s u f, CpuTurn s u → s.asleep = false → decode (s.progRead s.pc) = .ok (.movf f .w) →
    fileTarget f s = .pcl →
    ∃ t, Completes s (.movf f .w) t ∧ t.w.toNat = (s.pc.toNat + 1) % 256 ∧
      (s.pc = 0x0101#13 → t.w = 0x02#8)) ∧
  (∀ a s, s.cfg.wf = true → bankOffset a = s.cfg.addrPcl →
    dataRead a s = .next (BitVec.ofNat 8 s.pc.toNat, s))

/-- A result stored to PCL loads PC with PCLATH : result, for every instruction that writes a file
register (10_state.md section 2, 41_byte_oriented.md section 1, 41_byte_oriented.md section 2,
42_bit_oriented.md, 20_memory.md section 1). -/
def Obligations.WriteOfPclTakesPclathAlong : Prop :=
  (∀ i s, storesTo i s = some .pcl →
    ∃ t, exec i s = .next t ∧ t.pclath = s.pclath ∧
      (skipsOnZero i ∧ fileResult i s = 0#8 →
        t.pc = BitVec.ofNat 13 (256 * s.pclath.toNat + (fileResult i s).toNat) + 1#13) ∧
      (¬ (skipsOnZero i ∧ fileResult i s = 0#8) →
        t.pc = BitVec.ofNat 13 (256 * s.pclath.toNat + (fileResult i s).toNat))) ∧
  (∀ a v s, target a s = .pcl →
    dataWrite a v s = .next { s with pc := BitVec.ofNat 13 (256 * s.pclath.toNat + v.toNat) }) ∧
  (∀ f s, fileTarget f s = .pcl →
    exec (.movwf f) s = .next { s with pc := BitVec.ofNat 13 (256 * s.pclath.toNat + s.w.toNat) }) ∧
  (∀ f s, fileTarget f s = .pcl →
    ∃ st : Byte, exec (.clrf f) s =
      .next { s with pc := BitVec.ofNat 13 (256 * s.pclath.toNat), status := st }) ∧
  (∀ f s, fileTarget f s = .pcl →
    ∃ st : Byte, exec (.addwf f .f) s = .next { s with
      pc := BitVec.ofNat 13 (256 * s.pclath.toNat + (s.pc.toNat + s.w.toNat) % 256), status := st })
end

