-- ==== Sys2Proof/Laws/Decode.lean ====
section
/-! SUPPORT. Encoding and decoding: the words of the formats, taken apart. -/

namespace Sys2Proof

/-- Two words with equal high six bits and equal low eight bits are equal. -/
theorem word_ext {v w : CodeWord} (h : v.extractLsb' 8 6 = w.extractLsb' 8 6)
    (l : v.extractLsb' 0 8 = w.extractLsb' 0 8) : v = w := by
  apply BitVec.eq_of_getLsbD_eq
  intro i hi
  by_cases hl : i < 8
  · have := congrArg (fun x => x.getLsbD i) l
    simpa [BitVec.getLsbD_extractLsb', hl] using this
  · have := congrArg (fun x => x.getLsbD (i - 8)) h
    simpa [BitVec.getLsbD_extractLsb', show i - 8 < 6 by omega, show 8 + (i - 8) = i by omega] using this

/-- A word is its high six bits before its low eight bits. -/
theorem word_split (w : CodeWord) : w = w.extractLsb' 8 6 ++ w.extractLsb' 0 8 := by
  apply BitVec.eq_of_getLsbD_eq
  intro i hi
  rw [BitVec.getLsbD_append]
  by_cases hl : i < 8
  · simp [hl]
  · simp [hl, show i - 8 < 6 by omega, show 8 + (i - 8) = i by omega]

/-! ## The fields of a word written as its parts (R61, R62, R63) -/

theorem fieldF_append (o : BitVec 7) (f : FileField) : fieldF (o ++ f) = f := by
  unfold fieldF
  rw [BitVec.extractLsb'_append_eq_of_add_le (by omega)]
  simp

theorem fieldB_append (o : BitVec 4) (b : BitNum) (f : FileField) : fieldB (o ++ b ++ f) = b := by
  unfold fieldB
  rw [BitVec.extractLsb'_append_eq_of_le (by omega), BitVec.extractLsb'_append_eq_of_add_le (by omega)]
  simp

theorem fieldK8_append (o : BitVec 6) (k : Byte) : fieldK8 (o ++ k) = k := by
  unfold fieldK8
  rw [BitVec.extractLsb'_append_eq_of_add_le (by omega)]
  simp

theorem fieldK11_append (o : BitVec 3) (k : PageAddr) : fieldK11 (o ++ k) = k := by
  unfold fieldK11
  rw [BitVec.extractLsb'_append_eq_of_add_le (by omega)]
  simp

/-- The group bits of a word written as an opcode of three bits and the rest. -/
theorem group_append (o : BitVec 3) (k : PageAddr) :
    ((o ++ k : CodeWord)).extractLsb' 12 2 = o.extractLsb' 1 2 := by
  rw [BitVec.extractLsb'_append_eq_of_le (by omega)]

theorem bit11_append (o : BitVec 3) (k : PageAddr) : (o ++ k : CodeWord).getLsbD 11 = o.getLsbD 0 := by
  rw [BitVec.getLsbD_append]
  simp

/-! ## The byte-oriented format: six opcode bits, `d`, `f` (R61) -/

theorem group_byteWord (o : BitVec 6) (x : BitVec 1) (f : FileField) :
    (o ++ x ++ f : CodeWord).extractLsb' 12 2 = o.extractLsb' 4 2 := by
  rw [BitVec.extractLsb'_append_eq_of_le (by omega), BitVec.extractLsb'_append_eq_of_le (by omega)]

theorem nibble_byteWord (o : BitVec 6) (x : BitVec 1) (f : FileField) :
    (o ++ x ++ f : CodeWord).extractLsb' 8 4 = o.extractLsb' 0 4 := by
  rw [BitVec.extractLsb'_append_eq_of_le (by omega), BitVec.extractLsb'_append_eq_of_le (by omega)]

theorem fieldF_byteWord (o : BitVec 6) (x : BitVec 1) (f : FileField) : fieldF (o ++ x ++ f) = f :=
  fieldF_append (o ++ x) f

theorem fieldD_byteWord (o : BitVec 6) (d : Dest) (f : FileField) : fieldD (o ++ d.bit ++ f) = d := by
  unfold fieldD
  rw [BitVec.getLsbD_append, BitVec.getLsbD_append]
  cases d <;> rfl

/-! ## Seven opcode bits and `f`: bit 7 is part of the opcode (R64) -/

theorem group_fileWord (o : BitVec 7) (f : FileField) :
    (o ++ f : CodeWord).extractLsb' 12 2 = o.extractLsb' 5 2 := by
  rw [BitVec.extractLsb'_append_eq_of_le (by omega)]

theorem nibble_fileWord (o : BitVec 7) (f : FileField) :
    (o ++ f : CodeWord).extractLsb' 8 4 = o.extractLsb' 1 4 := by
  rw [BitVec.extractLsb'_append_eq_of_le (by omega)]

theorem bit7_fileWord (o : BitVec 7) (f : FileField) : (o ++ f : CodeWord).getLsbD 7 = o.getLsbD 0 := by
  rw [BitVec.getLsbD_append]
  simp

/-! ## The bit-oriented format: four opcode bits, `b`, `f` (R62) -/

theorem group_bitWord (o : BitVec 4) (b : BitNum) (f : FileField) :
    (o ++ b ++ f : CodeWord).extractLsb' 12 2 = o.extractLsb' 2 2 := by
  rw [BitVec.extractLsb'_append_eq_of_le (by omega), BitVec.extractLsb'_append_eq_of_le (by omega)]

theorem opcode_bitWord (o : BitVec 4) (b : BitNum) (f : FileField) :
    (o ++ b ++ f : CodeWord).extractLsb' 10 2 = o.extractLsb' 0 2 := by
  rw [BitVec.extractLsb'_append_eq_of_le (by omega), BitVec.extractLsb'_append_eq_of_le (by omega)]

theorem fieldF_bitWord (o : BitVec 4) (b : BitNum) (f : FileField) : fieldF (o ++ b ++ f) = f :=
  fieldF_append (o ++ b) f

/-! ## The literal format: six opcode bits and `k` (R63) -/

theorem group_literalWord (o : BitVec 6) (k : Byte) :
    (o ++ k : CodeWord).extractLsb' 12 2 = o.extractLsb' 4 2 := by
  rw [BitVec.extractLsb'_append_eq_of_le (by omega)]

theorem nibble_literalWord (o : BitVec 6) (k : Byte) :
    (o ++ k : CodeWord).extractLsb' 8 4 = o.extractLsb' 0 4 := by
  rw [BitVec.extractLsb'_append_eq_of_le (by omega)]

/-- A property of the high six and the low eight bits holds of the word. -/
theorem forall_word {P : CodeWord → Prop} (h : ∀ (hi : BitVec 6) (lo : Byte), P (hi ++ lo)) (w : CodeWord) :
    P w := by
  rw [word_split w]
  exact h _ _

end Sys2Proof
end

