-- ==== Sys2Proof/Laws/State.lean ====
section
/-! SUPPORT. One lemma for each field and each update of Machine/Fields.lean: the update's own field
holds the new value, every other field is kept. -/

namespace Sys2Proof.Machine

section
variable (s : State) (v : Byte)

@[simp] theorem State.setW_w : (s.setW v).w = v := rfl
@[simp] theorem State.setW_pc : (s.setW v).pc = s.pc := rfl
@[simp] theorem State.setW_status : (s.setW v).status = s.status := rfl
@[simp] theorem State.setW_pclath : (s.setW v).pclath = s.pclath := rfl
@[simp] theorem State.setW_intcon : (s.setW v).intcon = s.intcon := rfl
@[simp] theorem State.setW_fsr : (s.setW v).fsr = s.fsr := rfl
@[simp] theorem State.setW_stack : (s.setW v).stack = s.stack := rfl
@[simp] theorem State.setW_ring : (s.setW v).ring = s.ring := rfl
@[simp] theorem State.setW_data : (s.setW v).data = s.data := rfl
@[simp] theorem State.setW_code : (s.setW v).code = s.code := rfl
@[simp] theorem State.setW_asleep : (s.setW v).asleep = s.asleep := rfl
@[simp] theorem State.setW_wdt : (s.setW v).wdt = s.wdt := rfl
@[simp] theorem State.setW_irq : (s.setW v).irq = s.irq := rfl
@[simp] theorem State.setW_cfg : (s.setW v).cfg = s.cfg := rfl
@[simp] theorem State.setW_env : (s.setW v).env = s.env := rfl
@[simp] theorem State.setW_draws : (s.setW v).draws = s.draws := rfl
@[simp] theorem State.setW_powerUps : (s.setW v).powerUps = s.powerUps := rfl
@[simp] theorem State.setW_deviceLog : (s.setW v).deviceLog = s.deviceLog := rfl

end

section
variable (s : State) (v : Pc)

@[simp] theorem State.setPc_w : (s.setPc v).w = s.w := rfl
@[simp] theorem State.setPc_pc : (s.setPc v).pc = v := rfl
@[simp] theorem State.setPc_status : (s.setPc v).status = s.status := rfl
@[simp] theorem State.setPc_pclath : (s.setPc v).pclath = s.pclath := rfl
@[simp] theorem State.setPc_intcon : (s.setPc v).intcon = s.intcon := rfl
@[simp] theorem State.setPc_fsr : (s.setPc v).fsr = s.fsr := rfl
@[simp] theorem State.setPc_stack : (s.setPc v).stack = s.stack := rfl
@[simp] theorem State.setPc_ring : (s.setPc v).ring = s.ring := rfl
@[simp] theorem State.setPc_data : (s.setPc v).data = s.data := rfl
@[simp] theorem State.setPc_code : (s.setPc v).code = s.code := rfl
@[simp] theorem State.setPc_asleep : (s.setPc v).asleep = s.asleep := rfl
@[simp] theorem State.setPc_wdt : (s.setPc v).wdt = s.wdt := rfl
@[simp] theorem State.setPc_irq : (s.setPc v).irq = s.irq := rfl
@[simp] theorem State.setPc_cfg : (s.setPc v).cfg = s.cfg := rfl
@[simp] theorem State.setPc_env : (s.setPc v).env = s.env := rfl
@[simp] theorem State.setPc_draws : (s.setPc v).draws = s.draws := rfl
@[simp] theorem State.setPc_powerUps : (s.setPc v).powerUps = s.powerUps := rfl
@[simp] theorem State.setPc_deviceLog : (s.setPc v).deviceLog = s.deviceLog := rfl

end

section
variable (s : State) (v : Byte)

@[simp] theorem State.setStatus_w : (s.setStatus v).w = s.w := rfl
@[simp] theorem State.setStatus_pc : (s.setStatus v).pc = s.pc := rfl
@[simp] theorem State.setStatus_status : (s.setStatus v).status = v := rfl
@[simp] theorem State.setStatus_pclath : (s.setStatus v).pclath = s.pclath := rfl
@[simp] theorem State.setStatus_intcon : (s.setStatus v).intcon = s.intcon := rfl
@[simp] theorem State.setStatus_fsr : (s.setStatus v).fsr = s.fsr := rfl
@[simp] theorem State.setStatus_stack : (s.setStatus v).stack = s.stack := rfl
@[simp] theorem State.setStatus_ring : (s.setStatus v).ring = s.ring := rfl
@[simp] theorem State.setStatus_data : (s.setStatus v).data = s.data := rfl
@[simp] theorem State.setStatus_code : (s.setStatus v).code = s.code := rfl
@[simp] theorem State.setStatus_asleep : (s.setStatus v).asleep = s.asleep := rfl
@[simp] theorem State.setStatus_wdt : (s.setStatus v).wdt = s.wdt := rfl
@[simp] theorem State.setStatus_irq : (s.setStatus v).irq = s.irq := rfl
@[simp] theorem State.setStatus_cfg : (s.setStatus v).cfg = s.cfg := rfl
@[simp] theorem State.setStatus_env : (s.setStatus v).env = s.env := rfl
@[simp] theorem State.setStatus_draws : (s.setStatus v).draws = s.draws := rfl
@[simp] theorem State.setStatus_powerUps : (s.setStatus v).powerUps = s.powerUps := rfl
@[simp] theorem State.setStatus_deviceLog : (s.setStatus v).deviceLog = s.deviceLog := rfl

end

section
variable (s : State) (v : BitVec 5)

@[simp] theorem State.setPclath_w : (s.setPclath v).w = s.w := rfl
@[simp] theorem State.setPclath_pc : (s.setPclath v).pc = s.pc := rfl
@[simp] theorem State.setPclath_status : (s.setPclath v).status = s.status := rfl
@[simp] theorem State.setPclath_pclath : (s.setPclath v).pclath = v := rfl
@[simp] theorem State.setPclath_intcon : (s.setPclath v).intcon = s.intcon := rfl
@[simp] theorem State.setPclath_fsr : (s.setPclath v).fsr = s.fsr := rfl
@[simp] theorem State.setPclath_stack : (s.setPclath v).stack = s.stack := rfl
@[simp] theorem State.setPclath_ring : (s.setPclath v).ring = s.ring := rfl
@[simp] theorem State.setPclath_data : (s.setPclath v).data = s.data := rfl
@[simp] theorem State.setPclath_code : (s.setPclath v).code = s.code := rfl
@[simp] theorem State.setPclath_asleep : (s.setPclath v).asleep = s.asleep := rfl
@[simp] theorem State.setPclath_wdt : (s.setPclath v).wdt = s.wdt := rfl
@[simp] theorem State.setPclath_irq : (s.setPclath v).irq = s.irq := rfl
@[simp] theorem State.setPclath_cfg : (s.setPclath v).cfg = s.cfg := rfl
@[simp] theorem State.setPclath_env : (s.setPclath v).env = s.env := rfl
@[simp] theorem State.setPclath_draws : (s.setPclath v).draws = s.draws := rfl
@[simp] theorem State.setPclath_powerUps : (s.setPclath v).powerUps = s.powerUps := rfl
@[simp] theorem State.setPclath_deviceLog : (s.setPclath v).deviceLog = s.deviceLog := rfl

end

section
variable (s : State) (v : Byte)

@[simp] theorem State.setIntcon_w : (s.setIntcon v).w = s.w := rfl
@[simp] theorem State.setIntcon_pc : (s.setIntcon v).pc = s.pc := rfl
@[simp] theorem State.setIntcon_status : (s.setIntcon v).status = s.status := rfl
@[simp] theorem State.setIntcon_pclath : (s.setIntcon v).pclath = s.pclath := rfl
@[simp] theorem State.setIntcon_intcon : (s.setIntcon v).intcon = v := rfl
@[simp] theorem State.setIntcon_fsr : (s.setIntcon v).fsr = s.fsr := rfl
@[simp] theorem State.setIntcon_stack : (s.setIntcon v).stack = s.stack := rfl
@[simp] theorem State.setIntcon_ring : (s.setIntcon v).ring = s.ring := rfl
@[simp] theorem State.setIntcon_data : (s.setIntcon v).data = s.data := rfl
@[simp] theorem State.setIntcon_code : (s.setIntcon v).code = s.code := rfl
@[simp] theorem State.setIntcon_asleep : (s.setIntcon v).asleep = s.asleep := rfl
@[simp] theorem State.setIntcon_wdt : (s.setIntcon v).wdt = s.wdt := rfl
@[simp] theorem State.setIntcon_irq : (s.setIntcon v).irq = s.irq := rfl
@[simp] theorem State.setIntcon_cfg : (s.setIntcon v).cfg = s.cfg := rfl
@[simp] theorem State.setIntcon_env : (s.setIntcon v).env = s.env := rfl
@[simp] theorem State.setIntcon_draws : (s.setIntcon v).draws = s.draws := rfl
@[simp] theorem State.setIntcon_powerUps : (s.setIntcon v).powerUps = s.powerUps := rfl
@[simp] theorem State.setIntcon_deviceLog : (s.setIntcon v).deviceLog = s.deviceLog := rfl

end

section
variable (s : State) (v : Byte)

@[simp] theorem State.setFsr_w : (s.setFsr v).w = s.w := rfl
@[simp] theorem State.setFsr_pc : (s.setFsr v).pc = s.pc := rfl
@[simp] theorem State.setFsr_status : (s.setFsr v).status = s.status := rfl
@[simp] theorem State.setFsr_pclath : (s.setFsr v).pclath = s.pclath := rfl
@[simp] theorem State.setFsr_intcon : (s.setFsr v).intcon = s.intcon := rfl
@[simp] theorem State.setFsr_fsr : (s.setFsr v).fsr = v := rfl
@[simp] theorem State.setFsr_stack : (s.setFsr v).stack = s.stack := rfl
@[simp] theorem State.setFsr_ring : (s.setFsr v).ring = s.ring := rfl
@[simp] theorem State.setFsr_data : (s.setFsr v).data = s.data := rfl
@[simp] theorem State.setFsr_code : (s.setFsr v).code = s.code := rfl
@[simp] theorem State.setFsr_asleep : (s.setFsr v).asleep = s.asleep := rfl
@[simp] theorem State.setFsr_wdt : (s.setFsr v).wdt = s.wdt := rfl
@[simp] theorem State.setFsr_irq : (s.setFsr v).irq = s.irq := rfl
@[simp] theorem State.setFsr_cfg : (s.setFsr v).cfg = s.cfg := rfl
@[simp] theorem State.setFsr_env : (s.setFsr v).env = s.env := rfl
@[simp] theorem State.setFsr_draws : (s.setFsr v).draws = s.draws := rfl
@[simp] theorem State.setFsr_powerUps : (s.setFsr v).powerUps = s.powerUps := rfl
@[simp] theorem State.setFsr_deviceLog : (s.setFsr v).deviceLog = s.deviceLog := rfl

end

section
variable (s : State) (v : List Pc)

@[simp] theorem State.setStack_w : (s.setStack v).w = s.w := rfl
@[simp] theorem State.setStack_pc : (s.setStack v).pc = s.pc := rfl
@[simp] theorem State.setStack_status : (s.setStack v).status = s.status := rfl
@[simp] theorem State.setStack_pclath : (s.setStack v).pclath = s.pclath := rfl
@[simp] theorem State.setStack_intcon : (s.setStack v).intcon = s.intcon := rfl
@[simp] theorem State.setStack_fsr : (s.setStack v).fsr = s.fsr := rfl
@[simp] theorem State.setStack_stack : (s.setStack v).stack = v := rfl
@[simp] theorem State.setStack_ring : (s.setStack v).ring = s.ring := rfl
@[simp] theorem State.setStack_data : (s.setStack v).data = s.data := rfl
@[simp] theorem State.setStack_code : (s.setStack v).code = s.code := rfl
@[simp] theorem State.setStack_asleep : (s.setStack v).asleep = s.asleep := rfl
@[simp] theorem State.setStack_wdt : (s.setStack v).wdt = s.wdt := rfl
@[simp] theorem State.setStack_irq : (s.setStack v).irq = s.irq := rfl
@[simp] theorem State.setStack_cfg : (s.setStack v).cfg = s.cfg := rfl
@[simp] theorem State.setStack_env : (s.setStack v).env = s.env := rfl
@[simp] theorem State.setStack_draws : (s.setStack v).draws = s.draws := rfl
@[simp] theorem State.setStack_powerUps : (s.setStack v).powerUps = s.powerUps := rfl
@[simp] theorem State.setStack_deviceLog : (s.setStack v).deviceLog = s.deviceLog := rfl

end

section
variable (s : State) (v : Ring)

@[simp] theorem State.setRing_w : (s.setRing v).w = s.w := rfl
@[simp] theorem State.setRing_pc : (s.setRing v).pc = s.pc := rfl
@[simp] theorem State.setRing_status : (s.setRing v).status = s.status := rfl
@[simp] theorem State.setRing_pclath : (s.setRing v).pclath = s.pclath := rfl
@[simp] theorem State.setRing_intcon : (s.setRing v).intcon = s.intcon := rfl
@[simp] theorem State.setRing_fsr : (s.setRing v).fsr = s.fsr := rfl
@[simp] theorem State.setRing_stack : (s.setRing v).stack = s.stack := rfl
@[simp] theorem State.setRing_ring : (s.setRing v).ring = v := rfl
@[simp] theorem State.setRing_data : (s.setRing v).data = s.data := rfl
@[simp] theorem State.setRing_code : (s.setRing v).code = s.code := rfl
@[simp] theorem State.setRing_asleep : (s.setRing v).asleep = s.asleep := rfl
@[simp] theorem State.setRing_wdt : (s.setRing v).wdt = s.wdt := rfl
@[simp] theorem State.setRing_irq : (s.setRing v).irq = s.irq := rfl
@[simp] theorem State.setRing_cfg : (s.setRing v).cfg = s.cfg := rfl
@[simp] theorem State.setRing_env : (s.setRing v).env = s.env := rfl
@[simp] theorem State.setRing_draws : (s.setRing v).draws = s.draws := rfl
@[simp] theorem State.setRing_powerUps : (s.setRing v).powerUps = s.powerUps := rfl
@[simp] theorem State.setRing_deviceLog : (s.setRing v).deviceLog = s.deviceLog := rfl

end

section
variable (s : State) (v : Memory)

@[simp] theorem State.setData_w : (s.setData v).w = s.w := rfl
@[simp] theorem State.setData_pc : (s.setData v).pc = s.pc := rfl
@[simp] theorem State.setData_status : (s.setData v).status = s.status := rfl
@[simp] theorem State.setData_pclath : (s.setData v).pclath = s.pclath := rfl
@[simp] theorem State.setData_intcon : (s.setData v).intcon = s.intcon := rfl
@[simp] theorem State.setData_fsr : (s.setData v).fsr = s.fsr := rfl
@[simp] theorem State.setData_stack : (s.setData v).stack = s.stack := rfl
@[simp] theorem State.setData_ring : (s.setData v).ring = s.ring := rfl
@[simp] theorem State.setData_data : (s.setData v).data = v := rfl
@[simp] theorem State.setData_code : (s.setData v).code = s.code := rfl
@[simp] theorem State.setData_asleep : (s.setData v).asleep = s.asleep := rfl
@[simp] theorem State.setData_wdt : (s.setData v).wdt = s.wdt := rfl
@[simp] theorem State.setData_irq : (s.setData v).irq = s.irq := rfl
@[simp] theorem State.setData_cfg : (s.setData v).cfg = s.cfg := rfl
@[simp] theorem State.setData_env : (s.setData v).env = s.env := rfl
@[simp] theorem State.setData_draws : (s.setData v).draws = s.draws := rfl
@[simp] theorem State.setData_powerUps : (s.setData v).powerUps = s.powerUps := rfl
@[simp] theorem State.setData_deviceLog : (s.setData v).deviceLog = s.deviceLog := rfl

end

section
variable (s : State) (v : CodeImage)

@[simp] theorem State.setCode_w : (s.setCode v).w = s.w := rfl
@[simp] theorem State.setCode_pc : (s.setCode v).pc = s.pc := rfl
@[simp] theorem State.setCode_status : (s.setCode v).status = s.status := rfl
@[simp] theorem State.setCode_pclath : (s.setCode v).pclath = s.pclath := rfl
@[simp] theorem State.setCode_intcon : (s.setCode v).intcon = s.intcon := rfl
@[simp] theorem State.setCode_fsr : (s.setCode v).fsr = s.fsr := rfl
@[simp] theorem State.setCode_stack : (s.setCode v).stack = s.stack := rfl
@[simp] theorem State.setCode_ring : (s.setCode v).ring = s.ring := rfl
@[simp] theorem State.setCode_data : (s.setCode v).data = s.data := rfl
@[simp] theorem State.setCode_code : (s.setCode v).code = v := rfl
@[simp] theorem State.setCode_asleep : (s.setCode v).asleep = s.asleep := rfl
@[simp] theorem State.setCode_wdt : (s.setCode v).wdt = s.wdt := rfl
@[simp] theorem State.setCode_irq : (s.setCode v).irq = s.irq := rfl
@[simp] theorem State.setCode_cfg : (s.setCode v).cfg = s.cfg := rfl
@[simp] theorem State.setCode_env : (s.setCode v).env = s.env := rfl
@[simp] theorem State.setCode_draws : (s.setCode v).draws = s.draws := rfl
@[simp] theorem State.setCode_powerUps : (s.setCode v).powerUps = s.powerUps := rfl
@[simp] theorem State.setCode_deviceLog : (s.setCode v).deviceLog = s.deviceLog := rfl

end

section
variable (s : State) (v : Bool)

@[simp] theorem State.setAsleep_w : (s.setAsleep v).w = s.w := rfl
@[simp] theorem State.setAsleep_pc : (s.setAsleep v).pc = s.pc := rfl
@[simp] theorem State.setAsleep_status : (s.setAsleep v).status = s.status := rfl
@[simp] theorem State.setAsleep_pclath : (s.setAsleep v).pclath = s.pclath := rfl
@[simp] theorem State.setAsleep_intcon : (s.setAsleep v).intcon = s.intcon := rfl
@[simp] theorem State.setAsleep_fsr : (s.setAsleep v).fsr = s.fsr := rfl
@[simp] theorem State.setAsleep_stack : (s.setAsleep v).stack = s.stack := rfl
@[simp] theorem State.setAsleep_ring : (s.setAsleep v).ring = s.ring := rfl
@[simp] theorem State.setAsleep_data : (s.setAsleep v).data = s.data := rfl
@[simp] theorem State.setAsleep_code : (s.setAsleep v).code = s.code := rfl
@[simp] theorem State.setAsleep_asleep : (s.setAsleep v).asleep = v := rfl
@[simp] theorem State.setAsleep_wdt : (s.setAsleep v).wdt = s.wdt := rfl
@[simp] theorem State.setAsleep_irq : (s.setAsleep v).irq = s.irq := rfl
@[simp] theorem State.setAsleep_cfg : (s.setAsleep v).cfg = s.cfg := rfl
@[simp] theorem State.setAsleep_env : (s.setAsleep v).env = s.env := rfl
@[simp] theorem State.setAsleep_draws : (s.setAsleep v).draws = s.draws := rfl
@[simp] theorem State.setAsleep_powerUps : (s.setAsleep v).powerUps = s.powerUps := rfl
@[simp] theorem State.setAsleep_deviceLog : (s.setAsleep v).deviceLog = s.deviceLog := rfl

end

section
variable (s : State) (v : Nat)

@[simp] theorem State.setWdt_w : (s.setWdt v).w = s.w := rfl
@[simp] theorem State.setWdt_pc : (s.setWdt v).pc = s.pc := rfl
@[simp] theorem State.setWdt_status : (s.setWdt v).status = s.status := rfl
@[simp] theorem State.setWdt_pclath : (s.setWdt v).pclath = s.pclath := rfl
@[simp] theorem State.setWdt_intcon : (s.setWdt v).intcon = s.intcon := rfl
@[simp] theorem State.setWdt_fsr : (s.setWdt v).fsr = s.fsr := rfl
@[simp] theorem State.setWdt_stack : (s.setWdt v).stack = s.stack := rfl
@[simp] theorem State.setWdt_ring : (s.setWdt v).ring = s.ring := rfl
@[simp] theorem State.setWdt_data : (s.setWdt v).data = s.data := rfl
@[simp] theorem State.setWdt_code : (s.setWdt v).code = s.code := rfl
@[simp] theorem State.setWdt_asleep : (s.setWdt v).asleep = s.asleep := rfl
@[simp] theorem State.setWdt_wdt : (s.setWdt v).wdt = v := rfl
@[simp] theorem State.setWdt_irq : (s.setWdt v).irq = s.irq := rfl
@[simp] theorem State.setWdt_cfg : (s.setWdt v).cfg = s.cfg := rfl
@[simp] theorem State.setWdt_env : (s.setWdt v).env = s.env := rfl
@[simp] theorem State.setWdt_draws : (s.setWdt v).draws = s.draws := rfl
@[simp] theorem State.setWdt_powerUps : (s.setWdt v).powerUps = s.powerUps := rfl
@[simp] theorem State.setWdt_deviceLog : (s.setWdt v).deviceLog = s.deviceLog := rfl

end

section
variable (s : State) (v : Bool)

@[simp] theorem State.setIrq_w : (s.setIrq v).w = s.w := rfl
@[simp] theorem State.setIrq_pc : (s.setIrq v).pc = s.pc := rfl
@[simp] theorem State.setIrq_status : (s.setIrq v).status = s.status := rfl
@[simp] theorem State.setIrq_pclath : (s.setIrq v).pclath = s.pclath := rfl
@[simp] theorem State.setIrq_intcon : (s.setIrq v).intcon = s.intcon := rfl
@[simp] theorem State.setIrq_fsr : (s.setIrq v).fsr = s.fsr := rfl
@[simp] theorem State.setIrq_stack : (s.setIrq v).stack = s.stack := rfl
@[simp] theorem State.setIrq_ring : (s.setIrq v).ring = s.ring := rfl
@[simp] theorem State.setIrq_data : (s.setIrq v).data = s.data := rfl
@[simp] theorem State.setIrq_code : (s.setIrq v).code = s.code := rfl
@[simp] theorem State.setIrq_asleep : (s.setIrq v).asleep = s.asleep := rfl
@[simp] theorem State.setIrq_wdt : (s.setIrq v).wdt = s.wdt := rfl
@[simp] theorem State.setIrq_irq : (s.setIrq v).irq = v := rfl
@[simp] theorem State.setIrq_cfg : (s.setIrq v).cfg = s.cfg := rfl
@[simp] theorem State.setIrq_env : (s.setIrq v).env = s.env := rfl
@[simp] theorem State.setIrq_draws : (s.setIrq v).draws = s.draws := rfl
@[simp] theorem State.setIrq_powerUps : (s.setIrq v).powerUps = s.powerUps := rfl
@[simp] theorem State.setIrq_deviceLog : (s.setIrq v).deviceLog = s.deviceLog := rfl

end

section
variable (s : State) (v : List Turn)

@[simp] theorem State.setEnv_w : (s.setEnv v).w = s.w := rfl
@[simp] theorem State.setEnv_pc : (s.setEnv v).pc = s.pc := rfl
@[simp] theorem State.setEnv_status : (s.setEnv v).status = s.status := rfl
@[simp] theorem State.setEnv_pclath : (s.setEnv v).pclath = s.pclath := rfl
@[simp] theorem State.setEnv_intcon : (s.setEnv v).intcon = s.intcon := rfl
@[simp] theorem State.setEnv_fsr : (s.setEnv v).fsr = s.fsr := rfl
@[simp] theorem State.setEnv_stack : (s.setEnv v).stack = s.stack := rfl
@[simp] theorem State.setEnv_ring : (s.setEnv v).ring = s.ring := rfl
@[simp] theorem State.setEnv_data : (s.setEnv v).data = s.data := rfl
@[simp] theorem State.setEnv_code : (s.setEnv v).code = s.code := rfl
@[simp] theorem State.setEnv_asleep : (s.setEnv v).asleep = s.asleep := rfl
@[simp] theorem State.setEnv_wdt : (s.setEnv v).wdt = s.wdt := rfl
@[simp] theorem State.setEnv_irq : (s.setEnv v).irq = s.irq := rfl
@[simp] theorem State.setEnv_cfg : (s.setEnv v).cfg = s.cfg := rfl
@[simp] theorem State.setEnv_env : (s.setEnv v).env = v := rfl
@[simp] theorem State.setEnv_draws : (s.setEnv v).draws = s.draws := rfl
@[simp] theorem State.setEnv_powerUps : (s.setEnv v).powerUps = s.powerUps := rfl
@[simp] theorem State.setEnv_deviceLog : (s.setEnv v).deviceLog = s.deviceLog := rfl

end

section
variable (s : State) (v : Nat)

@[simp] theorem State.setDraws_w : (s.setDraws v).w = s.w := rfl
@[simp] theorem State.setDraws_pc : (s.setDraws v).pc = s.pc := rfl
@[simp] theorem State.setDraws_status : (s.setDraws v).status = s.status := rfl
@[simp] theorem State.setDraws_pclath : (s.setDraws v).pclath = s.pclath := rfl
@[simp] theorem State.setDraws_intcon : (s.setDraws v).intcon = s.intcon := rfl
@[simp] theorem State.setDraws_fsr : (s.setDraws v).fsr = s.fsr := rfl
@[simp] theorem State.setDraws_stack : (s.setDraws v).stack = s.stack := rfl
@[simp] theorem State.setDraws_ring : (s.setDraws v).ring = s.ring := rfl
@[simp] theorem State.setDraws_data : (s.setDraws v).data = s.data := rfl
@[simp] theorem State.setDraws_code : (s.setDraws v).code = s.code := rfl
@[simp] theorem State.setDraws_asleep : (s.setDraws v).asleep = s.asleep := rfl
@[simp] theorem State.setDraws_wdt : (s.setDraws v).wdt = s.wdt := rfl
@[simp] theorem State.setDraws_irq : (s.setDraws v).irq = s.irq := rfl
@[simp] theorem State.setDraws_cfg : (s.setDraws v).cfg = s.cfg := rfl
@[simp] theorem State.setDraws_env : (s.setDraws v).env = s.env := rfl
@[simp] theorem State.setDraws_draws : (s.setDraws v).draws = v := rfl
@[simp] theorem State.setDraws_powerUps : (s.setDraws v).powerUps = s.powerUps := rfl
@[simp] theorem State.setDraws_deviceLog : (s.setDraws v).deviceLog = s.deviceLog := rfl

end

section
variable (s : State) (v : Nat)

@[simp] theorem State.setPowerUps_w : (s.setPowerUps v).w = s.w := rfl
@[simp] theorem State.setPowerUps_pc : (s.setPowerUps v).pc = s.pc := rfl
@[simp] theorem State.setPowerUps_status : (s.setPowerUps v).status = s.status := rfl
@[simp] theorem State.setPowerUps_pclath : (s.setPowerUps v).pclath = s.pclath := rfl
@[simp] theorem State.setPowerUps_intcon : (s.setPowerUps v).intcon = s.intcon := rfl
@[simp] theorem State.setPowerUps_fsr : (s.setPowerUps v).fsr = s.fsr := rfl
@[simp] theorem State.setPowerUps_stack : (s.setPowerUps v).stack = s.stack := rfl
@[simp] theorem State.setPowerUps_ring : (s.setPowerUps v).ring = s.ring := rfl
@[simp] theorem State.setPowerUps_data : (s.setPowerUps v).data = s.data := rfl
@[simp] theorem State.setPowerUps_code : (s.setPowerUps v).code = s.code := rfl
@[simp] theorem State.setPowerUps_asleep : (s.setPowerUps v).asleep = s.asleep := rfl
@[simp] theorem State.setPowerUps_wdt : (s.setPowerUps v).wdt = s.wdt := rfl
@[simp] theorem State.setPowerUps_irq : (s.setPowerUps v).irq = s.irq := rfl
@[simp] theorem State.setPowerUps_cfg : (s.setPowerUps v).cfg = s.cfg := rfl
@[simp] theorem State.setPowerUps_env : (s.setPowerUps v).env = s.env := rfl
@[simp] theorem State.setPowerUps_draws : (s.setPowerUps v).draws = s.draws := rfl
@[simp] theorem State.setPowerUps_powerUps : (s.setPowerUps v).powerUps = v := rfl
@[simp] theorem State.setPowerUps_deviceLog : (s.setPowerUps v).deviceLog = s.deviceLog := rfl

end

section
variable (s : State) (v : List DeviceAccess)

@[simp] theorem State.setDeviceLog_w : (s.setDeviceLog v).w = s.w := rfl
@[simp] theorem State.setDeviceLog_pc : (s.setDeviceLog v).pc = s.pc := rfl
@[simp] theorem State.setDeviceLog_status : (s.setDeviceLog v).status = s.status := rfl
@[simp] theorem State.setDeviceLog_pclath : (s.setDeviceLog v).pclath = s.pclath := rfl
@[simp] theorem State.setDeviceLog_intcon : (s.setDeviceLog v).intcon = s.intcon := rfl
@[simp] theorem State.setDeviceLog_fsr : (s.setDeviceLog v).fsr = s.fsr := rfl
@[simp] theorem State.setDeviceLog_stack : (s.setDeviceLog v).stack = s.stack := rfl
@[simp] theorem State.setDeviceLog_ring : (s.setDeviceLog v).ring = s.ring := rfl
@[simp] theorem State.setDeviceLog_data : (s.setDeviceLog v).data = s.data := rfl
@[simp] theorem State.setDeviceLog_code : (s.setDeviceLog v).code = s.code := rfl
@[simp] theorem State.setDeviceLog_asleep : (s.setDeviceLog v).asleep = s.asleep := rfl
@[simp] theorem State.setDeviceLog_wdt : (s.setDeviceLog v).wdt = s.wdt := rfl
@[simp] theorem State.setDeviceLog_irq : (s.setDeviceLog v).irq = s.irq := rfl
@[simp] theorem State.setDeviceLog_cfg : (s.setDeviceLog v).cfg = s.cfg := rfl
@[simp] theorem State.setDeviceLog_env : (s.setDeviceLog v).env = s.env := rfl
@[simp] theorem State.setDeviceLog_draws : (s.setDeviceLog v).draws = s.draws := rfl
@[simp] theorem State.setDeviceLog_powerUps : (s.setDeviceLog v).powerUps = s.powerUps := rfl
@[simp] theorem State.setDeviceLog_deviceLog : (s.setDeviceLog v).deviceLog = v := rfl

end

end Sys2Proof.Machine
end

