-- ==== Sys2Proof/Laws/Memory.lean ====
section
/-! SUPPORT. The laws of the two memories: a read after a write, and the canonical forms kept. -/

namespace Sys2Proof.Machine

section pairs
variable {α : Type} (m : List (Nat × α)) (k j : Nat) (v : α)

theorem pairsGet_pairsPut : pairsGet (pairsPut m k v) j = if j = k then some v else pairsGet m j := by
  induction m with
  | nil => simp [pairsPut, pairsGet, eq_comm]
  | cons c m ih =>
    obtain ⟨a, u⟩ := c
    simp only [pairsPut]
    split
    · simp [pairsGet, eq_comm]
    · split
      · rename_i h1 h2
        by_cases hj : j = k
        · simp [pairsGet, hj]
        · have : ¬ a = j := fun h => hj (h.symm.trans h2.symm)
          simp [pairsGet, hj, Ne.symm hj, this]
      · by_cases hj : j = k
        · subst hj; simp_all [pairsGet, eq_comm]
        · simp [pairsGet, ih, hj]

theorem pairsGet_pairsErase : pairsGet (pairsErase m k) j = if j = k then none else pairsGet m j := by
  induction m with
  | nil => simp [pairsErase, pairsGet]
  | cons c m ih =>
    obtain ⟨a, u⟩ := c
    simp only [pairsErase] at ih
    by_cases ha : a = k
    · subst ha
      by_cases hj : j = a <;> simp_all [pairsErase, pairsGet, eq_comm]
    · by_cases hj : j = k <;> simp_all [pairsErase, pairsGet]

theorem mem_pairsPut {c : Nat × α} (h : c ∈ pairsPut m k v) : c = (k, v) ∨ c ∈ m := by
  induction m with
  | nil => simpa [pairsPut] using h
  | cons d m ih =>
    obtain ⟨a, u⟩ := d
    simp only [pairsPut] at h
    split at h
    · simpa using h
    · split at h
      · simp only [List.mem_cons] at h ⊢; tauto
      · simp only [List.mem_cons] at h ⊢; tauto

theorem pairsPut_rising (h : pairsRising m = true) : pairsRising (pairsPut m k v) = true := by
  simp only [pairsRising, decide_eq_true_eq] at h ⊢
  induction m with
  | nil => simp [pairsPut]
  | cons c m ih =>
    obtain ⟨a, u⟩ := c
    obtain ⟨hc, hm⟩ := List.pairwise_cons.mp h
    simp only [pairsPut]
    split
    · refine List.pairwise_cons.mpr ⟨fun d hd => ?_, h⟩
      rcases List.mem_cons.mp hd with rfl | hd
      · assumption
      · exact lt_trans ‹_› (hc d hd)
    · split
      · subst_vars; exact List.pairwise_cons.mpr ⟨hc, hm⟩
      · refine List.pairwise_cons.mpr ⟨fun d hd => ?_, ih hm⟩
        rcases mem_pairsPut m k v hd with rfl | hd
        · simp only; omega
        · exact hc d hd

theorem pairsErase_rising (h : pairsRising m = true) : pairsRising (pairsErase m k) = true := by
  unfold pairsRising at h ⊢
  exact decide_eq_true ((of_decide_eq_true h).filter _)

end pairs

/-! ## RAM cells -/

@[simp] theorem Memory.read_write (m : Memory) (c j : Nat) (v : Byte) :
    (m.write c v).read j = if j = c then some v else m.read j := pairsGet_pairsPut m c j v

theorem Memory.wf_write {m : Memory} (h : m.wf = true) (c : Nat) (v : Byte) :
    (m.write c v).wf = true := pairsPut_rising m c v h

/-- The reset state's memory is in the canonical form. -/
theorem State.reset_data_wf : State.reset.data.wf = true := by decide

theorem State.ramByte_writeRam (s : State) (c j : Nat) (v : Byte) :
    (s.writeRam c v).ramByte j = if j = c then v else s.ramByte j := by
  by_cases h : j = c <;> simp [State.ramByte, State.writeRam, h]

/-- RAM is read from its own field and the number of power-ups alone. -/
theorem State.ramByte_congr {s t : State} (hd : t.data = s.data) (hp : t.powerUps = s.powerUps)
    (c : Nat) : t.ramByte c = s.ramByte c := by
  simp [State.ramByte, hd, hp]

section
variable (s : State) (c : Nat) (v : Byte)

@[simp] theorem State.writeRam_w : (s.writeRam c v).w = s.w := rfl

@[simp] theorem State.writeRam_pc : (s.writeRam c v).pc = s.pc := rfl

@[simp] theorem State.writeRam_status : (s.writeRam c v).status = s.status := rfl

@[simp] theorem State.writeRam_pclath : (s.writeRam c v).pclath = s.pclath := rfl

@[simp] theorem State.writeRam_intcon : (s.writeRam c v).intcon = s.intcon := rfl

@[simp] theorem State.writeRam_fsr : (s.writeRam c v).fsr = s.fsr := rfl

@[simp] theorem State.writeRam_stack : (s.writeRam c v).stack = s.stack := rfl

@[simp] theorem State.writeRam_ring : (s.writeRam c v).ring = s.ring := rfl

@[simp] theorem State.writeRam_code : (s.writeRam c v).code = s.code := rfl

@[simp] theorem State.writeRam_asleep : (s.writeRam c v).asleep = s.asleep := rfl

@[simp] theorem State.writeRam_wdt : (s.writeRam c v).wdt = s.wdt := rfl

@[simp] theorem State.writeRam_irq : (s.writeRam c v).irq = s.irq := rfl

@[simp] theorem State.writeRam_cfg : (s.writeRam c v).cfg = s.cfg := rfl

@[simp] theorem State.writeRam_env : (s.writeRam c v).env = s.env := rfl

@[simp] theorem State.writeRam_draws : (s.writeRam c v).draws = s.draws := rfl

@[simp] theorem State.writeRam_powerUps : (s.writeRam c v).powerUps = s.powerUps := rfl

@[simp] theorem State.writeRam_deviceLog : (s.writeRam c v).deviceLog = s.deviceLog := rfl

end

/-! Only `setData` and `setPowerUps` touch RAM. -/

@[simp] theorem State.setW_ramByte (s : State) (v : Byte) (c : Nat) :
    (s.setW v).ramByte c = s.ramByte c := rfl

@[simp] theorem State.setPc_ramByte (s : State) (v : Pc) (c : Nat) :
    (s.setPc v).ramByte c = s.ramByte c := rfl

@[simp] theorem State.setStatus_ramByte (s : State) (v : Byte) (c : Nat) :
    (s.setStatus v).ramByte c = s.ramByte c := rfl

@[simp] theorem State.setPclath_ramByte (s : State) (v : BitVec 5) (c : Nat) :
    (s.setPclath v).ramByte c = s.ramByte c := rfl

@[simp] theorem State.setIntcon_ramByte (s : State) (v : Byte) (c : Nat) :
    (s.setIntcon v).ramByte c = s.ramByte c := rfl

@[simp] theorem State.setFsr_ramByte (s : State) (v : Byte) (c : Nat) :
    (s.setFsr v).ramByte c = s.ramByte c := rfl

@[simp] theorem State.setStack_ramByte (s : State) (v : List Pc) (c : Nat) :
    (s.setStack v).ramByte c = s.ramByte c := rfl

@[simp] theorem State.setRing_ramByte (s : State) (v : Ring) (c : Nat) :
    (s.setRing v).ramByte c = s.ramByte c := rfl

@[simp] theorem State.setCode_ramByte (s : State) (v : CodeImage) (c : Nat) :
    (s.setCode v).ramByte c = s.ramByte c := rfl

@[simp] theorem State.setAsleep_ramByte (s : State) (v : Bool) (c : Nat) :
    (s.setAsleep v).ramByte c = s.ramByte c := rfl

@[simp] theorem State.setWdt_ramByte (s : State) (v : Nat) (c : Nat) :
    (s.setWdt v).ramByte c = s.ramByte c := rfl

@[simp] theorem State.setIrq_ramByte (s : State) (v : Bool) (c : Nat) :
    (s.setIrq v).ramByte c = s.ramByte c := rfl

@[simp] theorem State.setEnv_ramByte (s : State) (v : List Turn) (c : Nat) :
    (s.setEnv v).ramByte c = s.ramByte c := rfl

@[simp] theorem State.setDraws_ramByte (s : State) (v : Nat) (c : Nat) :
    (s.setDraws v).ramByte c = s.ramByte c := rfl

@[simp] theorem State.setDeviceLog_ramByte (s : State) (v : List DeviceAccess) (c : Nat) :
    (s.setDeviceLog v).ramByte c = s.ramByte c := rfl

/-! ## The code image -/

theorem CodeImage.read_write (e : CodeWord) (m : CodeImage) (a j : Nat) (v : CodeWord) :
    CodeImage.read e (CodeImage.write e m a v) j = if j = a then v else CodeImage.read e m j := by
  unfold CodeImage.read CodeImage.write
  split
  · by_cases h : j = a <;> simp_all [pairsGet_pairsErase]
  · by_cases h : j = a <;> simp [pairsGet_pairsPut, h]

theorem CodeImage.wf_write {e : CodeWord} {m : CodeImage} (h : CodeImage.wf e m = true) {a : Nat}
    (ha : a < 8192) (v : CodeWord) : CodeImage.wf e (CodeImage.write e m a v) = true := by
  simp only [CodeImage.wf, Bool.and_eq_true, List.all_eq_true, decide_eq_true_eq, bne_iff_ne] at h ⊢
  obtain ⟨hr, hm⟩ := h
  unfold CodeImage.write
  split
  · exact ⟨pairsErase_rising m a hr, fun c hc => hm c (List.mem_of_mem_filter hc)⟩
  · refine ⟨pairsPut_rising m a v hr, fun c hc => ?_⟩
    rcases mem_pairsPut m a v hc with rfl | hc
    · exact ⟨ha, ‹_›⟩
    · exact hm c hc

/-- Fetch depends on the code image and the erased word alone. -/
theorem State.progRead_congr {s t : State} (hc : t.code = s.code) (hg : t.cfg = s.cfg) (a : Pc) :
    t.progRead a = s.progRead a := by
  simp [State.progRead, hc, hg]

theorem State.progRead_placeCode (s : State) (a : Pc) (v : CodeWord) :
    (s.placeCode a v).progRead a = v := by
  simp [State.progRead, State.placeCode, CodeImage.read_write]

end Sys2Proof.Machine
end

