-- ==== Sys2Proof/Laws/Flags.lean ====
section
/-! SUPPORT. The laws of single bits, carries and the named bits of STATUS and INTCON. -/

namespace Sys2Proof.Machine

theorem getLsbD_setBit (v : Byte) (i j : Nat) (b : Bool) :
    (setBit v i b).getLsbD j = if j = i ∧ j < 8 then b else v.getLsbD j := by
  unfold setBit
  by_cases hj : j < 8
  · have h1 : (1#8 <<< i).getLsbD j = decide (j = i) := by
      rw [BitVec.getLsbD_shiftLeft, BitVec.getLsbD_one]
      by_cases h : j = i
      · simp [h, h ▸ hj]
      · by_cases h2 : j < i
        · simp [h, h2]
        · simp [h, h2, hj, show ¬ j - i = 0 by omega]
    cases b
    · simp only [Bool.false_eq_true, if_false]
      rw [BitVec.getLsbD_and, BitVec.getLsbD_not, h1]
      by_cases h : j = i
      · rw [if_pos ⟨h, hj⟩, decide_eq_true h]; simp
      · rw [if_neg (fun x => h x.1), decide_eq_false h]; simp [hj]
    · simp only [if_true]
      rw [BitVec.getLsbD_or, h1]
      by_cases h : j = i
      · rw [if_pos ⟨h, hj⟩, decide_eq_true h]; simp
      · rw [if_neg (fun x => h x.1), decide_eq_false h]; simp
  · have h2 : ∀ x : Byte, x.getLsbD j = false := fun x => BitVec.getLsbD_of_ge x j (by omega)
    split <;> simp [h2, hj]

/-- Two bytes with equal bits are equal. -/
theorem byte_ext {a b : Byte} (h : ∀ j < 8, a.getLsbD j = b.getLsbD j) : a = b :=
  BitVec.eq_of_getLsbD_eq fun i hi => h i hi

/-! ## The carries as comparisons -/

theorem carry8_eq (a b : Byte) (cin : Bool) :
    carry8 a b cin = decide (256 ≤ a.toNat + b.toNat + cin.toNat) := by
  have hc : cin.toNat ≤ 1 := by cases cin <;> simp
  unfold carry8
  rw [BitVec.getLsbD, BitVec.toNat_add, BitVec.toNat_add]
  simp only [BitVec.toNat_setWidth, BitVec.toNat_ofBool]
  have ha := a.isLt
  have hb := b.isLt
  rw [Nat.testBit_eq_decide_div_mod_eq]
  simp only [decide_eq_decide]
  omega

theorem carry4_eq (a b : Byte) (cin : Bool) :
    carry4 a b cin = decide (16 ≤ a.toNat % 16 + b.toNat % 16 + cin.toNat) := by
  have hc : cin.toNat ≤ 1 := by cases cin <;> simp
  unfold carry4
  rw [BitVec.getLsbD, BitVec.toNat_add, BitVec.toNat_add]
  simp only [BitVec.toNat_setWidth, BitVec.toNat_ofBool, BitVec.extractLsb'_toNat, Nat.shiftRight_zero]
  rw [Nat.testBit_eq_decide_div_mod_eq]
  simp only [decide_eq_decide]
  omega

theorem sum8_toNat (a b : Byte) (cin : Bool) :
    (sum8 a b cin).toNat = (a.toNat + b.toNat + cin.toNat) % 256 := by
  have hc : cin.toNat ≤ 1 := by cases cin <;> simp
  unfold sum8
  rw [BitVec.toNat_add, BitVec.toNat_add]
  simp only [BitVec.toNat_setWidth, BitVec.toNat_ofBool]
  omega

theorem beq_zero_eq (a : Byte) : (a == 0#8) = decide (a.toNat = 0) := by
  rw [Bool.eq_iff_iff]
  simp [← BitVec.toNat_inj]

theorem not_toNat (a : Byte) : (~~~a).toNat = 255 - a.toNat := by
  rw [BitVec.toNat_not]

/-! ## The named bits of STATUS: each update sets its bit and keeps every other bit and field -/

section
variable (s : State) (b : Bool)

@[simp] theorem State.setTimeOut_timeOut : (s.setTimeOut b).timeOut = b := by
  rw [State.setTimeOut, State.timeOut, State.setStatus_status, getLsbD_setBit]; rfl

@[simp] theorem State.setTimeOut_powerDown : (s.setTimeOut b).powerDown = s.powerDown := by
  rw [State.setTimeOut, State.powerDown, State.setStatus_status, getLsbD_setBit]; rfl

@[simp] theorem State.setTimeOut_zero : (s.setTimeOut b).zero = s.zero := by
  rw [State.setTimeOut, State.zero, State.setStatus_status, getLsbD_setBit]; rfl

@[simp] theorem State.setTimeOut_digitCarry : (s.setTimeOut b).digitCarry = s.digitCarry := by
  rw [State.setTimeOut, State.digitCarry, State.setStatus_status, getLsbD_setBit]; rfl

@[simp] theorem State.setTimeOut_carry : (s.setTimeOut b).carry = s.carry := by
  rw [State.setTimeOut, State.carry, State.setStatus_status, getLsbD_setBit]; rfl

@[simp] theorem State.setTimeOut_banks : (s.setTimeOut b).status.extractLsb' 5 3 = s.status.extractLsb' 5 3 := by
  apply BitVec.eq_of_getLsbD_eq
  intro j hj
  rw [State.setTimeOut, State.setStatus_status, BitVec.getLsbD_extractLsb', BitVec.getLsbD_extractLsb', getLsbD_setBit, if_neg (by omega)]

@[simp] theorem State.setTimeOut_w : (s.setTimeOut b).w = s.w := rfl

@[simp] theorem State.setTimeOut_pc : (s.setTimeOut b).pc = s.pc := rfl

@[simp] theorem State.setTimeOut_pclath : (s.setTimeOut b).pclath = s.pclath := rfl

@[simp] theorem State.setTimeOut_intcon : (s.setTimeOut b).intcon = s.intcon := rfl

@[simp] theorem State.setTimeOut_fsr : (s.setTimeOut b).fsr = s.fsr := rfl

@[simp] theorem State.setTimeOut_stack : (s.setTimeOut b).stack = s.stack := rfl

@[simp] theorem State.setTimeOut_ring : (s.setTimeOut b).ring = s.ring := rfl

@[simp] theorem State.setTimeOut_data : (s.setTimeOut b).data = s.data := rfl

@[simp] theorem State.setTimeOut_code : (s.setTimeOut b).code = s.code := rfl

@[simp] theorem State.setTimeOut_asleep : (s.setTimeOut b).asleep = s.asleep := rfl

@[simp] theorem State.setTimeOut_wdt : (s.setTimeOut b).wdt = s.wdt := rfl

@[simp] theorem State.setTimeOut_irq : (s.setTimeOut b).irq = s.irq := rfl

@[simp] theorem State.setTimeOut_cfg : (s.setTimeOut b).cfg = s.cfg := rfl

@[simp] theorem State.setTimeOut_env : (s.setTimeOut b).env = s.env := rfl

@[simp] theorem State.setTimeOut_draws : (s.setTimeOut b).draws = s.draws := rfl

@[simp] theorem State.setTimeOut_powerUps : (s.setTimeOut b).powerUps = s.powerUps := rfl

@[simp] theorem State.setTimeOut_deviceLog : (s.setTimeOut b).deviceLog = s.deviceLog := rfl

@[simp] theorem State.setTimeOut_ramByte (c : Nat) : (s.setTimeOut b).ramByte c = s.ramByte c := rfl

@[simp] theorem State.setPowerDown_timeOut : (s.setPowerDown b).timeOut = s.timeOut := by
  rw [State.setPowerDown, State.timeOut, State.setStatus_status, getLsbD_setBit]; rfl

@[simp] theorem State.setPowerDown_powerDown : (s.setPowerDown b).powerDown = b := by
  rw [State.setPowerDown, State.powerDown, State.setStatus_status, getLsbD_setBit]; rfl

@[simp] theorem State.setPowerDown_zero : (s.setPowerDown b).zero = s.zero := by
  rw [State.setPowerDown, State.zero, State.setStatus_status, getLsbD_setBit]; rfl

@[simp] theorem State.setPowerDown_digitCarry : (s.setPowerDown b).digitCarry = s.digitCarry := by
  rw [State.setPowerDown, State.digitCarry, State.setStatus_status, getLsbD_setBit]; rfl

@[simp] theorem State.setPowerDown_carry : (s.setPowerDown b).carry = s.carry := by
  rw [State.setPowerDown, State.carry, State.setStatus_status, getLsbD_setBit]; rfl

@[simp] theorem State.setPowerDown_banks : (s.setPowerDown b).status.extractLsb' 5 3 = s.status.extractLsb' 5 3 := by
  apply BitVec.eq_of_getLsbD_eq
  intro j hj
  rw [State.setPowerDown, State.setStatus_status, BitVec.getLsbD_extractLsb', BitVec.getLsbD_extractLsb', getLsbD_setBit, if_neg (by omega)]

@[simp] theorem State.setPowerDown_w : (s.setPowerDown b).w = s.w := rfl

@[simp] theorem State.setPowerDown_pc : (s.setPowerDown b).pc = s.pc := rfl

@[simp] theorem State.setPowerDown_pclath : (s.setPowerDown b).pclath = s.pclath := rfl

@[simp] theorem State.setPowerDown_intcon : (s.setPowerDown b).intcon = s.intcon := rfl

@[simp] theorem State.setPowerDown_fsr : (s.setPowerDown b).fsr = s.fsr := rfl

@[simp] theorem State.setPowerDown_stack : (s.setPowerDown b).stack = s.stack := rfl

@[simp] theorem State.setPowerDown_ring : (s.setPowerDown b).ring = s.ring := rfl

@[simp] theorem State.setPowerDown_data : (s.setPowerDown b).data = s.data := rfl

@[simp] theorem State.setPowerDown_code : (s.setPowerDown b).code = s.code := rfl

@[simp] theorem State.setPowerDown_asleep : (s.setPowerDown b).asleep = s.asleep := rfl

@[simp] theorem State.setPowerDown_wdt : (s.setPowerDown b).wdt = s.wdt := rfl

@[simp] theorem State.setPowerDown_irq : (s.setPowerDown b).irq = s.irq := rfl

@[simp] theorem State.setPowerDown_cfg : (s.setPowerDown b).cfg = s.cfg := rfl

@[simp] theorem State.setPowerDown_env : (s.setPowerDown b).env = s.env := rfl

@[simp] theorem State.setPowerDown_draws : (s.setPowerDown b).draws = s.draws := rfl

@[simp] theorem State.setPowerDown_powerUps : (s.setPowerDown b).powerUps = s.powerUps := rfl

@[simp] theorem State.setPowerDown_deviceLog : (s.setPowerDown b).deviceLog = s.deviceLog := rfl

@[simp] theorem State.setPowerDown_ramByte (c : Nat) : (s.setPowerDown b).ramByte c = s.ramByte c := rfl

@[simp] theorem State.setZero_timeOut : (s.setZero b).timeOut = s.timeOut := by
  rw [State.setZero, State.timeOut, State.setStatus_status, getLsbD_setBit]; rfl

@[simp] theorem State.setZero_powerDown : (s.setZero b).powerDown = s.powerDown := by
  rw [State.setZero, State.powerDown, State.setStatus_status, getLsbD_setBit]; rfl

@[simp] theorem State.setZero_zero : (s.setZero b).zero = b := by
  rw [State.setZero, State.zero, State.setStatus_status, getLsbD_setBit]; rfl

@[simp] theorem State.setZero_digitCarry : (s.setZero b).digitCarry = s.digitCarry := by
  rw [State.setZero, State.digitCarry, State.setStatus_status, getLsbD_setBit]; rfl

@[simp] theorem State.setZero_carry : (s.setZero b).carry = s.carry := by
  rw [State.setZero, State.carry, State.setStatus_status, getLsbD_setBit]; rfl

@[simp] theorem State.setZero_banks : (s.setZero b).status.extractLsb' 5 3 = s.status.extractLsb' 5 3 := by
  apply BitVec.eq_of_getLsbD_eq
  intro j hj
  rw [State.setZero, State.setStatus_status, BitVec.getLsbD_extractLsb', BitVec.getLsbD_extractLsb', getLsbD_setBit, if_neg (by omega)]

@[simp] theorem State.setZero_w : (s.setZero b).w = s.w := rfl

@[simp] theorem State.setZero_pc : (s.setZero b).pc = s.pc := rfl

@[simp] theorem State.setZero_pclath : (s.setZero b).pclath = s.pclath := rfl

@[simp] theorem State.setZero_intcon : (s.setZero b).intcon = s.intcon := rfl

@[simp] theorem State.setZero_fsr : (s.setZero b).fsr = s.fsr := rfl

@[simp] theorem State.setZero_stack : (s.setZero b).stack = s.stack := rfl

@[simp] theorem State.setZero_ring : (s.setZero b).ring = s.ring := rfl

@[simp] theorem State.setZero_data : (s.setZero b).data = s.data := rfl

@[simp] theorem State.setZero_code : (s.setZero b).code = s.code := rfl

@[simp] theorem State.setZero_asleep : (s.setZero b).asleep = s.asleep := rfl

@[simp] theorem State.setZero_wdt : (s.setZero b).wdt = s.wdt := rfl

@[simp] theorem State.setZero_irq : (s.setZero b).irq = s.irq := rfl

@[simp] theorem State.setZero_cfg : (s.setZero b).cfg = s.cfg := rfl

@[simp] theorem State.setZero_env : (s.setZero b).env = s.env := rfl

@[simp] theorem State.setZero_draws : (s.setZero b).draws = s.draws := rfl

@[simp] theorem State.setZero_powerUps : (s.setZero b).powerUps = s.powerUps := rfl

@[simp] theorem State.setZero_deviceLog : (s.setZero b).deviceLog = s.deviceLog := rfl

@[simp] theorem State.setZero_ramByte (c : Nat) : (s.setZero b).ramByte c = s.ramByte c := rfl

@[simp] theorem State.setDigitCarry_timeOut : (s.setDigitCarry b).timeOut = s.timeOut := by
  rw [State.setDigitCarry, State.timeOut, State.setStatus_status, getLsbD_setBit]; rfl

@[simp] theorem State.setDigitCarry_powerDown : (s.setDigitCarry b).powerDown = s.powerDown := by
  rw [State.setDigitCarry, State.powerDown, State.setStatus_status, getLsbD_setBit]; rfl

@[simp] theorem State.setDigitCarry_zero : (s.setDigitCarry b).zero = s.zero := by
  rw [State.setDigitCarry, State.zero, State.setStatus_status, getLsbD_setBit]; rfl

@[simp] theorem State.setDigitCarry_digitCarry : (s.setDigitCarry b).digitCarry = b := by
  rw [State.setDigitCarry, State.digitCarry, State.setStatus_status, getLsbD_setBit]; rfl

@[simp] theorem State.setDigitCarry_carry : (s.setDigitCarry b).carry = s.carry := by
  rw [State.setDigitCarry, State.carry, State.setStatus_status, getLsbD_setBit]; rfl

@[simp] theorem State.setDigitCarry_banks : (s.setDigitCarry b).status.extractLsb' 5 3 = s.status.extractLsb' 5 3 := by
  apply BitVec.eq_of_getLsbD_eq
  intro j hj
  rw [State.setDigitCarry, State.setStatus_status, BitVec.getLsbD_extractLsb', BitVec.getLsbD_extractLsb', getLsbD_setBit, if_neg (by omega)]

@[simp] theorem State.setDigitCarry_w : (s.setDigitCarry b).w = s.w := rfl

@[simp] theorem State.setDigitCarry_pc : (s.setDigitCarry b).pc = s.pc := rfl

@[simp] theorem State.setDigitCarry_pclath : (s.setDigitCarry b).pclath = s.pclath := rfl

@[simp] theorem State.setDigitCarry_intcon : (s.setDigitCarry b).intcon = s.intcon := rfl

@[simp] theorem State.setDigitCarry_fsr : (s.setDigitCarry b).fsr = s.fsr := rfl

@[simp] theorem State.setDigitCarry_stack : (s.setDigitCarry b).stack = s.stack := rfl

@[simp] theorem State.setDigitCarry_ring : (s.setDigitCarry b).ring = s.ring := rfl

@[simp] theorem State.setDigitCarry_data : (s.setDigitCarry b).data = s.data := rfl

@[simp] theorem State.setDigitCarry_code : (s.setDigitCarry b).code = s.code := rfl

@[simp] theorem State.setDigitCarry_asleep : (s.setDigitCarry b).asleep = s.asleep := rfl

@[simp] theorem State.setDigitCarry_wdt : (s.setDigitCarry b).wdt = s.wdt := rfl

@[simp] theorem State.setDigitCarry_irq : (s.setDigitCarry b).irq = s.irq := rfl

@[simp] theorem State.setDigitCarry_cfg : (s.setDigitCarry b).cfg = s.cfg := rfl

@[simp] theorem State.setDigitCarry_env : (s.setDigitCarry b).env = s.env := rfl

@[simp] theorem State.setDigitCarry_draws : (s.setDigitCarry b).draws = s.draws := rfl

@[simp] theorem State.setDigitCarry_powerUps : (s.setDigitCarry b).powerUps = s.powerUps := rfl

@[simp] theorem State.setDigitCarry_deviceLog : (s.setDigitCarry b).deviceLog = s.deviceLog := rfl

@[simp] theorem State.setDigitCarry_ramByte (c : Nat) : (s.setDigitCarry b).ramByte c = s.ramByte c := rfl

@[simp] theorem State.setCarry_timeOut : (s.setCarry b).timeOut = s.timeOut := by
  rw [State.setCarry, State.timeOut, State.setStatus_status, getLsbD_setBit]; rfl

@[simp] theorem State.setCarry_powerDown : (s.setCarry b).powerDown = s.powerDown := by
  rw [State.setCarry, State.powerDown, State.setStatus_status, getLsbD_setBit]; rfl

@[simp] theorem State.setCarry_zero : (s.setCarry b).zero = s.zero := by
  rw [State.setCarry, State.zero, State.setStatus_status, getLsbD_setBit]; rfl

@[simp] theorem State.setCarry_digitCarry : (s.setCarry b).digitCarry = s.digitCarry := by
  rw [State.setCarry, State.digitCarry, State.setStatus_status, getLsbD_setBit]; rfl

@[simp] theorem State.setCarry_carry : (s.setCarry b).carry = b := by
  rw [State.setCarry, State.carry, State.setStatus_status, getLsbD_setBit]; rfl

@[simp] theorem State.setCarry_banks : (s.setCarry b).status.extractLsb' 5 3 = s.status.extractLsb' 5 3 := by
  apply BitVec.eq_of_getLsbD_eq
  intro j hj
  rw [State.setCarry, State.setStatus_status, BitVec.getLsbD_extractLsb', BitVec.getLsbD_extractLsb', getLsbD_setBit, if_neg (by omega)]

@[simp] theorem State.setCarry_w : (s.setCarry b).w = s.w := rfl

@[simp] theorem State.setCarry_pc : (s.setCarry b).pc = s.pc := rfl

@[simp] theorem State.setCarry_pclath : (s.setCarry b).pclath = s.pclath := rfl

@[simp] theorem State.setCarry_intcon : (s.setCarry b).intcon = s.intcon := rfl

@[simp] theorem State.setCarry_fsr : (s.setCarry b).fsr = s.fsr := rfl

@[simp] theorem State.setCarry_stack : (s.setCarry b).stack = s.stack := rfl

@[simp] theorem State.setCarry_ring : (s.setCarry b).ring = s.ring := rfl

@[simp] theorem State.setCarry_data : (s.setCarry b).data = s.data := rfl

@[simp] theorem State.setCarry_code : (s.setCarry b).code = s.code := rfl

@[simp] theorem State.setCarry_asleep : (s.setCarry b).asleep = s.asleep := rfl

@[simp] theorem State.setCarry_wdt : (s.setCarry b).wdt = s.wdt := rfl

@[simp] theorem State.setCarry_irq : (s.setCarry b).irq = s.irq := rfl

@[simp] theorem State.setCarry_cfg : (s.setCarry b).cfg = s.cfg := rfl

@[simp] theorem State.setCarry_env : (s.setCarry b).env = s.env := rfl

@[simp] theorem State.setCarry_draws : (s.setCarry b).draws = s.draws := rfl

@[simp] theorem State.setCarry_powerUps : (s.setCarry b).powerUps = s.powerUps := rfl

@[simp] theorem State.setCarry_deviceLog : (s.setCarry b).deviceLog = s.deviceLog := rfl

@[simp] theorem State.setCarry_ramByte (c : Nat) : (s.setCarry b).ramByte c = s.ramByte c := rfl

end

/-! ## Data written to STATUS (R16) -/

section
variable (s : State) (v : Byte)

theorem getLsbD_writeStatus (j : Nat) :
    (s.writeStatus v).status.getLsbD j = if j = 3 ∨ j = 4 then s.status.getLsbD j else v.getLsbD j := by
  by_cases hj : j < 8
  · rw [State.writeStatus, State.setStatus_status, BitVec.getLsbD_or, BitVec.getLsbD_and, BitVec.getLsbD_and]
    interval_cases j <;> simp
  · have h2 : ∀ y : Byte, y.getLsbD j = false := fun y => BitVec.getLsbD_of_ge y j (by omega)
    rw [h2, if_neg (by omega), h2]

@[simp] theorem State.writeStatus_timeOut : (s.writeStatus v).timeOut = s.timeOut :=
  getLsbD_writeStatus s v 4

@[simp] theorem State.writeStatus_powerDown : (s.writeStatus v).powerDown = s.powerDown :=
  getLsbD_writeStatus s v 3

@[simp] theorem State.writeStatus_zero : (s.writeStatus v).zero = v.getLsbD 2 :=
  getLsbD_writeStatus s v 2

@[simp] theorem State.writeStatus_digitCarry : (s.writeStatus v).digitCarry = v.getLsbD 1 :=
  getLsbD_writeStatus s v 1

@[simp] theorem State.writeStatus_carry : (s.writeStatus v).carry = v.getLsbD 0 :=
  getLsbD_writeStatus s v 0

@[simp] theorem State.writeStatus_banks :
    (s.writeStatus v).status.extractLsb' 5 3 = v.extractLsb' 5 3 := by
  apply BitVec.eq_of_getLsbD_eq
  intro j hj
  rw [BitVec.getLsbD_extractLsb', BitVec.getLsbD_extractLsb', getLsbD_writeStatus, if_neg (by omega)]

@[simp] theorem State.writeStatus_w : (s.writeStatus v).w = s.w := rfl

@[simp] theorem State.writeStatus_pc : (s.writeStatus v).pc = s.pc := rfl

@[simp] theorem State.writeStatus_pclath : (s.writeStatus v).pclath = s.pclath := rfl

@[simp] theorem State.writeStatus_intcon : (s.writeStatus v).intcon = s.intcon := rfl

@[simp] theorem State.writeStatus_fsr : (s.writeStatus v).fsr = s.fsr := rfl

@[simp] theorem State.writeStatus_stack : (s.writeStatus v).stack = s.stack := rfl

@[simp] theorem State.writeStatus_ring : (s.writeStatus v).ring = s.ring := rfl

@[simp] theorem State.writeStatus_data : (s.writeStatus v).data = s.data := rfl

@[simp] theorem State.writeStatus_code : (s.writeStatus v).code = s.code := rfl

@[simp] theorem State.writeStatus_asleep : (s.writeStatus v).asleep = s.asleep := rfl

@[simp] theorem State.writeStatus_wdt : (s.writeStatus v).wdt = s.wdt := rfl

@[simp] theorem State.writeStatus_irq : (s.writeStatus v).irq = s.irq := rfl

@[simp] theorem State.writeStatus_cfg : (s.writeStatus v).cfg = s.cfg := rfl

@[simp] theorem State.writeStatus_env : (s.writeStatus v).env = s.env := rfl

@[simp] theorem State.writeStatus_draws : (s.writeStatus v).draws = s.draws := rfl

@[simp] theorem State.writeStatus_powerUps : (s.writeStatus v).powerUps = s.powerUps := rfl

@[simp] theorem State.writeStatus_deviceLog : (s.writeStatus v).deviceLog = s.deviceLog := rfl

@[simp] theorem State.writeStatus_ramByte (c : Nat) : (s.writeStatus v).ramByte c = s.ramByte c := rfl

end

end Sys2Proof.Machine
end

