-- ==== Sys2Proof/Laws/Ops.lean ====
section
/-! SUPPORT. What the shared operations of Machine/Ops.lean can answer, said once. -/

namespace Sys2Proof.Machine

@[simp] theorem andThen_next {α β : Type} (a : α) (k : α → Result β) :
    andThen (.next a) k = k a := rfl

@[simp] theorem andThen_fault {α β : Type} (e : Fault) (k : α → Result β) :
    andThen (.fault e) k = .fault e := rfl

@[simp] theorem andThen_refused {α β : Type} (r : Refusal) (k : α → Result β) :
    andThen (.refused r) k = .refused r := rfl

theorem andThen_eq_next {α β : Type} {x : Result α} {k : α → Result β} {b : β} :
    andThen x k = .next b ↔ ∃ a, x = .next a ∧ k a = .next b := by
  cases x <;> simp

/-! ## GIE -/

theorem State.setGie_false (s : State) : s.setGie false = s.setIntcon (s.intcon &&& 0x7F#8) := by
  unfold State.setGie setBit; rfl

theorem State.setGie_true (s : State) : s.setGie true = s.setIntcon (s.intcon ||| 0x80#8) := by
  unfold State.setGie setBit; rfl

/-! ## The return stack -/

/-- Everything a push that answers can do. -/
theorem push_next {v : Pc} {s t : State} (h : push v s = .next t) :
    (s.cfg.stackPolicy = .fault ∧ s.stack.length < 8 ∧ t = s.setStack (v :: s.stack)) ∨
    (s.cfg.stackPolicy = .wrap ∧ t = s.setRing (ringPush s.ring v)) := by
  unfold push at h
  split at h
  · split at h
    · exact .inl ⟨‹_›, ‹_›, by simpa using h.symm⟩
    · simp at h
  · exact .inr ⟨‹_›, by simpa using h.symm⟩

theorem push_fault_policy {v : Pc} {s : State} (hp : s.cfg.stackPolicy = .fault)
    (hl : s.stack.length < 8) : push v s = .next (s.setStack (v :: s.stack)) := by
  simp [push, hp, hl]

theorem push_overflow {v : Pc} {s : State} (hp : s.cfg.stackPolicy = .fault)
    (hl : 8 ≤ s.stack.length) : push v s = .fault (.stackOverflow v) := by
  simp [push, hp, Nat.not_lt.mpr hl]

theorem push_wrap_policy {v : Pc} {s : State} (hp : s.cfg.stackPolicy = .wrap) :
    push v s = .next (s.setRing (ringPush s.ring v)) := by
  simp [push, hp]

/-- Everything a pop that answers can do. -/
theorem pop_next {s : State} {r : Pc × State} (h : pop s = .next r) :
    (∃ rest, s.cfg.stackPolicy = .fault ∧ s.stack = r.1 :: rest ∧ r.2 = s.setStack rest) ∨
    (s.cfg.stackPolicy = .wrap ∧ ringTop s.ring = some r.1 ∧ r.2 = s.setRing (ringPop s.ring r.1)) ∨
    (s.cfg.stackPolicy = .wrap ∧ ringTop s.ring = none ∧ r.1 = Config.freePc s.draws ∧
      r.2 = (s.setDraws (s.draws + 1)).setRing (ringPop s.ring r.1)) := by
  unfold pop at h
  split at h
  · split at h
    · obtain rfl := by simpa using h
      exact .inl ⟨_, ‹_›, ‹_›, rfl⟩
    · simp at h
  · split at h
    · obtain rfl := by simpa using h
      exact .inr (.inl ⟨‹_›, ‹_›, rfl⟩)
    · obtain rfl := by simpa [drawPc] using h
      exact .inr (.inr ⟨‹_›, ‹_›, rfl, rfl⟩)

theorem pop_fault_policy {s : State} {v : Pc} {rest : List Pc} (hp : s.cfg.stackPolicy = .fault)
    (hs : s.stack = v :: rest) : pop s = .next (v, s.setStack rest) := by
  simp [pop, hp, hs]

theorem pop_underflow {s : State} (hp : s.cfg.stackPolicy = .fault) (hs : s.stack = []) :
    pop s = .fault .stackUnderflow := by
  simp [pop, hp, hs]

theorem pop_wrap_some {s : State} {v : Pc} (hp : s.cfg.stackPolicy = .wrap)
    (hr : ringTop s.ring = some v) : pop s = .next (v, s.setRing (ringPop s.ring v)) := by
  simp [pop, hp, hr]

theorem pop_wrap_none {s : State} (hp : s.cfg.stackPolicy = .wrap) (hr : ringTop s.ring = none) :
    pop s = .next (Config.freePc s.draws,
      (s.setDraws (s.draws + 1)).setRing (ringPop s.ring (Config.freePc s.draws))) := by
  simp [pop, hp, hr, drawPc]

@[simp] theorem ringPush_ptr (r : Ring) (v : Pc) : (ringPush r v).ptr = r.ptr + 1#3 := rfl

@[simp] theorem ringPop_ptr (r : Ring) (v : Pc) : (ringPop r v).ptr = r.ptr - 1#3 := rfl

theorem ringPush_slot (r : Ring) (v : Pc) (i : Fin 8) :
    (ringPush r v).slots.get i = if i.val = r.ptr.toNat then some v else r.slots.get i := by
  simp only [ringPush, Vector.get_eq_getElem, Vector.getElem_set]
  by_cases h : i.val = r.ptr.toNat <;> simp [h, eq_comm]

theorem ringPop_slot (r : Ring) (v : Pc) (i : Fin 8) :
    (ringPop r v).slots.get i = if i.val = (r.ptr - 1#3).toNat then some v else r.slots.get i := by
  simp only [ringPop, Vector.get_eq_getElem, Vector.getElem_set]
  by_cases h : i.val = (r.ptr - 1#3).toNat <;> simp [h, eq_comm]

theorem ringTop_ringPush (r : Ring) (v : Pc) : ringTop (ringPush r v) = some v := by
  have h : r.ptr + 1#3 - 1#3 = r.ptr := by simp
  unfold ringTop
  rw [ringPush_slot]
  simp [h]

/-! ## The interrupt -/

/-- Everything the interrupt test can answer. -/
theorem interruptCheck_next {s t : State} (h : interruptCheck s = .next t) :
    t = s ∨ (s.irq = true ∧ s.gie = true ∧ s.asleep = false ∧ takeInterrupt s = .next t) := by
  unfold interruptCheck at h
  split at h
  · rename_i hc
    simp only [Bool.and_eq_true, Bool.not_eq_true'] at hc
    exact .inr ⟨hc.1.1, hc.1.2, hc.2, h⟩
  · exact .inl (by simpa using h.symm)

/-- Everything interrupt entry can answer. -/
theorem takeInterrupt_next {s t : State} (h : takeInterrupt s = .next t) :
    ∃ u, push s.pc (s.setGie false) = .next u ∧ t = u.setPc interruptVector := by
  obtain ⟨u, hu, ht⟩ := andThen_eq_next.mp h
  exact ⟨u, hu, by simpa using ht.symm⟩

/-- What interrupt entry answers under `STACK_POLICY = fault`. -/
theorem takeInterrupt_fault_policy {s : State} (hp : s.cfg.stackPolicy = .fault) (hl : s.stack.length < 8) :
    takeInterrupt s = .next (((s.setIntcon (s.intcon &&& 0x7F#8)).setStack (s.pc :: s.stack)).setPc
      interruptVector) := by
  have h : push s.pc (s.setIntcon (s.intcon &&& 0x7F#8)) = _ := push_fault_policy hp hl
  rw [takeInterrupt, State.setGie_false, h]
  rfl

theorem takeInterrupt_overflow {s : State} (hp : s.cfg.stackPolicy = .fault) (hl : 8 ≤ s.stack.length) :
    takeInterrupt s = .fault (.stackOverflow s.pc) := by
  have h : push s.pc (s.setIntcon (s.intcon &&& 0x7F#8)) = _ := push_overflow hp hl
  rw [takeInterrupt, State.setGie_false, h]
  rfl

/-- What interrupt entry answers under `STACK_POLICY = wrap`. -/
theorem takeInterrupt_wrap_policy {s : State} (hp : s.cfg.stackPolicy = .wrap) :
    takeInterrupt s = .next (((s.setIntcon (s.intcon &&& 0x7F#8)).setRing (ringPush s.ring s.pc)).setPc
      interruptVector) := by
  have h : push s.pc (s.setIntcon (s.intcon &&& 0x7F#8)) = _ := push_wrap_policy hp
  rw [takeInterrupt, State.setGie_false, h]
  rfl

/-- Everything the common part of the returns can answer. -/
theorem popPc_next {s t : State} (h : popPc s = .next t) :
    ∃ r, pop s = .next r ∧ t = r.2.setPc r.1 := by
  obtain ⟨r, hr, ht⟩ := andThen_eq_next.mp h
  exact ⟨r, hr, by simpa using ht.symm⟩

end Sys2Proof.Machine
end

