-- ==== Sys2Proof/Laws/Environment.lean ====
section
/-! SUPPORT. What the environment's events do to each field (70_reset_and_hazards.md R180;
60_exceptions.md R170, R172). -/

namespace Sys2Proof.Machine

section
variable (s : State)

/-! ## What every reset does -/

@[simp] theorem anyReset_w : (anyReset s).w = s.w := rfl
@[simp] theorem anyReset_pc : (anyReset s).pc = resetVector := rfl
@[simp] theorem anyReset_status : (anyReset s).status = s.status &&& 0x1F#8 := rfl
@[simp] theorem anyReset_pclath : (anyReset s).pclath = 0#5 := rfl
@[simp] theorem anyReset_intcon : (anyReset s).intcon = Config.freeByte s.draws &&& 0x7F#8 := rfl
@[simp] theorem anyReset_fsr : (anyReset s).fsr = s.fsr := rfl
@[simp] theorem anyReset_stack : (anyReset s).stack = [] := rfl
@[simp] theorem anyReset_ring : (anyReset s).ring = Ring.empty := rfl
@[simp] theorem anyReset_data : (anyReset s).data = s.data := rfl
@[simp] theorem anyReset_code : (anyReset s).code = s.code := rfl
@[simp] theorem anyReset_asleep : (anyReset s).asleep = false := rfl
@[simp] theorem anyReset_wdt : (anyReset s).wdt = 0 := rfl
@[simp] theorem anyReset_irq : (anyReset s).irq = s.irq := rfl
@[simp] theorem anyReset_cfg : (anyReset s).cfg = s.cfg := rfl
@[simp] theorem anyReset_env : (anyReset s).env = s.env := rfl
@[simp] theorem anyReset_draws : (anyReset s).draws = s.draws + 1 := rfl
@[simp] theorem anyReset_powerUps : (anyReset s).powerUps = s.powerUps := rfl
@[simp] theorem anyReset_deviceLog : (anyReset s).deviceLog = s.deviceLog := rfl

/-! ## External reset: no more than that -/

theorem externalReset_eq : externalReset s = anyReset s := rfl

/-! ## Watchdog reset: TO and PD besides -/

@[simp] theorem watchdogReset_w : (watchdogReset s).w = s.w := rfl
@[simp] theorem watchdogReset_pc : (watchdogReset s).pc = resetVector := rfl
@[simp] theorem watchdogReset_status : (watchdogReset s).status =
    setBit (setBit (s.status &&& 0x1F#8) 4 false) 3 (Config.freeBit (s.draws + 1)) := rfl
@[simp] theorem watchdogReset_pclath : (watchdogReset s).pclath = 0#5 := rfl
@[simp] theorem watchdogReset_intcon : (watchdogReset s).intcon =
    Config.freeByte s.draws &&& 0x7F#8 := rfl
@[simp] theorem watchdogReset_fsr : (watchdogReset s).fsr = s.fsr := rfl
@[simp] theorem watchdogReset_stack : (watchdogReset s).stack = [] := rfl
@[simp] theorem watchdogReset_ring : (watchdogReset s).ring = Ring.empty := rfl
@[simp] theorem watchdogReset_data : (watchdogReset s).data = s.data := rfl
@[simp] theorem watchdogReset_code : (watchdogReset s).code = s.code := rfl
@[simp] theorem watchdogReset_asleep : (watchdogReset s).asleep = false := rfl
@[simp] theorem watchdogReset_wdt : (watchdogReset s).wdt = 0 := rfl
@[simp] theorem watchdogReset_irq : (watchdogReset s).irq = s.irq := rfl
@[simp] theorem watchdogReset_cfg : (watchdogReset s).cfg = s.cfg := rfl
@[simp] theorem watchdogReset_env : (watchdogReset s).env = s.env := rfl
@[simp] theorem watchdogReset_draws : (watchdogReset s).draws = s.draws + 2 := rfl
@[simp] theorem watchdogReset_powerUps : (watchdogReset s).powerUps = s.powerUps := rfl
@[simp] theorem watchdogReset_deviceLog : (watchdogReset s).deviceLog = s.deviceLog := rfl

/-! ## Power-up: the unknown registers take free values -/

@[simp] theorem powerUpReset_w : (powerUpReset s).w = Config.freeByte (s.draws + 2) := rfl
@[simp] theorem powerUpReset_pc : (powerUpReset s).pc = resetVector := rfl
@[simp] theorem powerUpReset_status : (powerUpReset s).status =
    0x18#8 ||| (Config.freeByte (s.draws + 1) &&& 0x07#8) := rfl
@[simp] theorem powerUpReset_pclath : (powerUpReset s).pclath = 0#5 := rfl
@[simp] theorem powerUpReset_intcon : (powerUpReset s).intcon =
    Config.freeByte s.draws &&& 0x7F#8 := rfl
@[simp] theorem powerUpReset_fsr : (powerUpReset s).fsr = Config.freeByte (s.draws + 3) := rfl
@[simp] theorem powerUpReset_stack : (powerUpReset s).stack = [] := rfl
@[simp] theorem powerUpReset_ring : (powerUpReset s).ring = Ring.empty := rfl
@[simp] theorem powerUpReset_data : (powerUpReset s).data = [] := rfl
@[simp] theorem powerUpReset_code : (powerUpReset s).code = s.code := rfl
@[simp] theorem powerUpReset_asleep : (powerUpReset s).asleep = false := rfl
@[simp] theorem powerUpReset_wdt : (powerUpReset s).wdt = 0 := rfl
@[simp] theorem powerUpReset_irq : (powerUpReset s).irq = s.irq := rfl
@[simp] theorem powerUpReset_cfg : (powerUpReset s).cfg = s.cfg := rfl
@[simp] theorem powerUpReset_env : (powerUpReset s).env = s.env := rfl
@[simp] theorem powerUpReset_draws : (powerUpReset s).draws = s.draws + 4 := rfl
@[simp] theorem powerUpReset_powerUps : (powerUpReset s).powerUps = s.powerUps + 1 := rfl
@[simp] theorem powerUpReset_deviceLog : (powerUpReset s).deviceLog = s.deviceLog := rfl

/-! ## A watchdog time-out -/

theorem watchdogTimeout_none (h : s.cfg.wdtEnabled = false ∨ s.wdt = 0) : watchdogTimeout s = s := by
  have : timeoutAllowed s = false := by
    rcases h with h | h <;> simp [timeoutAllowed, h]
  simp [watchdogTimeout, this]

theorem watchdogTimeout_awake (h : s.cfg.wdtEnabled = true) (hw : 1 ≤ s.wdt) (ha : s.asleep = false) :
    watchdogTimeout s = watchdogReset s := by
  simp [watchdogTimeout, timeoutAllowed, h, hw, ha]

theorem watchdogTimeout_asleep (h : s.cfg.wdtEnabled = true) (hw : 1 ≤ s.wdt) (ha : s.asleep = true) :
    watchdogTimeout s = (s.setAsleep false).setTimeOut false := by
  simp [watchdogTimeout, timeoutAllowed, h, hw, ha]

/-- Everything a time-out can do. -/
theorem watchdogTimeout_cases :
    watchdogTimeout s = s ∨ watchdogTimeout s = watchdogReset s ∨
      watchdogTimeout s = (s.setAsleep false).setTimeOut false := by
  unfold watchdogTimeout
  split
  · split
    · exact .inr (.inr rfl)
    · exact .inr (.inl rfl)
  · exact .inl rfl

end

end Sys2Proof.Machine
end

