-- ==== Sys2Proof/Laws/Operands.lean ====
section
/-! SUPPORT. Reading, storing and the shape of the file register instructions: what they answer, and
their effect on every field. -/

namespace Sys2Proof.Machine

/-- The state after a target has been read: only a device register leaves a mark. -/
def afterRead (t : FileTarget) (s : State) : State :=
  match t with
  | .device g => (deviceRead g s).2
  | _ => s

/-- The state after a byte has been stored to a target that exists. -/
def stored (t : FileTarget) (v : Byte) (s : State) : State :=
  match t with
  | .indfItself => s
  | .pcl => s.setPc (s.pclath ++ v)
  | .status => s.writeStatus v
  | .fsr => s.setFsr v
  | .pclath => s.setPclath (v.extractLsb' 0 5)
  | .intcon => s.setIntcon v
  | .ram c => s.writeRam c v
  | .device g => deviceWrite g v s
  | .unimplemented _ => s

/-- The state after a result has been delivered. -/
def delivered (d : Dest) (t : FileTarget) (v : Byte) (s : State) : State :=
  match d with
  | .w => s.setW v
  | .f => stored t v s

theorem readTarget_eq {t : FileTarget} (h : ∀ a, t ≠ .unimplemented a) (s : State) :
    readTarget t s = .next (valueAt t s, afterRead t s) := by
  cases t with
  | unimplemented a => exact absurd rfl (h a)
  | _ => rfl

theorem writeTarget_eq {t : FileTarget} (h : ∀ a, t ≠ .unimplemented a) (v : Byte) (s : State) :
    writeTarget t v s = .next (stored t v s) := by
  cases t with
  | unimplemented a => exact absurd rfl (h a)
  | _ => rfl

theorem fileRead_eq {f : FileField} {s : State} (h : Mapped f s) :
    fileRead f s = .next (valueAt (fileTarget f s) s, afterRead (fileTarget f s) s) :=
  readTarget_eq h s

theorem fileRead_fault {f : FileField} {s : State} {a : DataAddr}
    (h : fileTarget f s = .unimplemented a) : fileRead f s = .fault (.unmappedFile a) := by
  show readTarget (fileTarget f s) s = _
  rw [h]; rfl

theorem fileWrite_eq {f : FileField} {s : State} (h : Mapped f s) (v : Byte) :
    fileWrite f v s = .next (stored (fileTarget f s) v s) :=
  writeTarget_eq h v s

theorem fileWrite_fault {f : FileField} {s : State} {a : DataAddr}
    (h : fileTarget f s = .unimplemented a) (v : Byte) :
    fileWrite f v s = .fault (.unmappedFile a) := by
  show writeTarget (fileTarget f s) v s = _
  rw [h]; rfl

/-- Where an operand stands depends on STATUS, FSR and the configuration alone. -/
theorem fileTarget_congr {s t : State} (hs : t.status = s.status) (hf : t.fsr = s.fsr)
    (hc : t.cfg = s.cfg) (f : FileField) : fileTarget f t = fileTarget f s := by
  cases s; cases t
  cases hs; cases hf; cases hc
  rfl

/-- A read does not move the operand. -/
theorem fileTarget_afterRead (t : FileTarget) (s : State) (f : FileField) :
    fileTarget f (afterRead t s) = fileTarget f s := by
  cases t <;> exact fileTarget_congr rfl rfl rfl f

theorem mapped_or (f : FileField) (s : State) :
    Mapped f s ∨ ∃ a, fileTarget f s = .unimplemented a := by
  by_cases h : ∃ a, fileTarget f s = .unimplemented a
  · exact .inr h
  · exact .inl fun a ha => h ⟨a, ha⟩

/-- What the shape of R100 answers where the operand exists. -/
theorem fileOp_eq {f : FileField} {s : State} (h : Mapped f s) (d : Dest) (result : Byte → Byte)
    (last : Byte → State → State) :
    fileOp f d result last s = .next (last (valueAt (fileTarget f s) s)
      (delivered d (fileTarget f s) (result (valueAt (fileTarget f s) s))
        (afterRead (fileTarget f s) s))) := by
  have hw : Mapped f (afterRead (fileTarget f s) s) := by
    intro a; rw [fileTarget_afterRead]; exact h a
  unfold fileOp
  rw [fileRead_eq h, andThen_next]
  cases d with
  | w => rfl
  | f => simp only [writeDest, fileWrite_eq hw, andThen_next, fileTarget_afterRead, delivered]

theorem fileOp_fault {f : FileField} {s : State} {a : DataAddr}
    (h : fileTarget f s = .unimplemented a) (d : Dest) (result : Byte → Byte)
    (last : Byte → State → State) : fileOp f d result last s = .fault (.unmappedFile a) := by
  unfold fileOp
  rw [fileRead_fault h, andThen_fault]

/-- Everything the shape of R100 can answer. -/
theorem fileOp_next {f : FileField} {d : Dest} {result : Byte → Byte} {last : Byte → State → State}
    {s t : State} (h : fileOp f d result last s = .next t) :
    Mapped f s ∧ t = last (valueAt (fileTarget f s) s)
      (delivered d (fileTarget f s) (result (valueAt (fileTarget f s) s))
        (afterRead (fileTarget f s) s)) := by
  rcases mapped_or f s with hm | ⟨a, ha⟩
  · rw [fileOp_eq hm] at h
    exact ⟨hm, by simpa using h.symm⟩
  · rw [fileOp_fault ha] at h
    simp at h

theorem fileTest_eq {f : FileField} {s : State} (h : Mapped f s) (skips : Byte → Bool) :
    fileTest f skips s = .next (skipIf (skips (valueAt (fileTarget f s) s))
      (afterRead (fileTarget f s) s)) := by
  unfold fileTest
  rw [fileRead_eq h, andThen_next]

theorem fileTest_fault {f : FileField} {s : State} {a : DataAddr}
    (h : fileTarget f s = .unimplemented a) (skips : Byte → Bool) :
    fileTest f skips s = .fault (.unmappedFile a) := by
  unfold fileTest
  rw [fileRead_fault h, andThen_fault]

/-- Everything the shape of the bit tests can answer. -/
theorem fileTest_next {f : FileField} {skips : Byte → Bool} {s t : State}
    (h : fileTest f skips s = .next t) :
    Mapped f s ∧ t = skipIf (skips (valueAt (fileTarget f s) s)) (afterRead (fileTarget f s) s) := by
  rcases mapped_or f s with hm | ⟨a, ha⟩
  · rw [fileTest_eq hm] at h
    exact ⟨hm, by simpa using h.symm⟩
  · rw [fileTest_fault ha] at h
    simp at h

/-! ## Effects, built up step by step -/

section
variable {x : Change} {s t : State}

theorem Does.withZero (h : Does x s t) (b : Bool) : Does { x with z := some b } s (t.setZero b) :=
  { h with
    banks := (State.setZero_banks t b).trans h.banks
    timeOut := (State.setZero_timeOut t b).trans h.timeOut
    powerDown := (State.setZero_powerDown t b).trans h.powerDown
    zero := State.setZero_zero t b
    digitCarry := (State.setZero_digitCarry t b).trans h.digitCarry
    carry := (State.setZero_carry t b).trans h.carry }

theorem Does.withDigitCarry (h : Does x s t) (b : Bool) :
    Does { x with dc := some b } s (t.setDigitCarry b) :=
  { h with
    banks := (State.setDigitCarry_banks t b).trans h.banks
    timeOut := (State.setDigitCarry_timeOut t b).trans h.timeOut
    powerDown := (State.setDigitCarry_powerDown t b).trans h.powerDown
    zero := (State.setDigitCarry_zero t b).trans h.zero
    digitCarry := State.setDigitCarry_digitCarry t b
    carry := (State.setDigitCarry_carry t b).trans h.carry }

theorem Does.withCarry (h : Does x s t) (b : Bool) : Does { x with c := some b } s (t.setCarry b) :=
  { h with
    banks := (State.setCarry_banks t b).trans h.banks
    timeOut := (State.setCarry_timeOut t b).trans h.timeOut
    powerDown := (State.setCarry_powerDown t b).trans h.powerDown
    zero := (State.setCarry_zero t b).trans h.zero
    digitCarry := (State.setCarry_digitCarry t b).trans h.digitCarry
    carry := State.setCarry_carry t b }

theorem Does.withW (h : Does x s t) (v : Byte) : Does { x with w := some v } s (t.setW v) :=
  { h with w := rfl }

theorem Does.withSkip (h : Does x s t) (hx : x.skip = false) (b : Bool) :
    Does { x with skip := b } s (skipIf b t) :=
  { h with
    pc := by
      have hp := h.pc
      simp only [hx, Bool.false_eq_true, if_false, BitVec.add_zero] at hp
      cases b
      · simp only [skipIf, State.setPc_pc, Bool.false_eq_true, if_false, BitVec.add_zero]
        exact hp
      · simp only [skipIf, State.setPc_pc, if_true, hp]
        rfl }

theorem Does.nothing (s : State) : Does {} s s := by
  constructor <;> simp [Change.storedTo, Change.deviceAccesses, Change.drawsUsed, State.zero,
    State.digitCarry, State.carry]

end

theorem State.ramByte_writeRam_getD (s : State) (c c' : Nat) (v : Byte) :
    (s.writeRam c v).ramByte c' = (if c = c' then some v else none).getD (s.ramByte c') := by
  rw [State.ramByte_writeRam]
  by_cases h : c' = c
  · simp [h]
  · simp [h, Ne.symm h]

/-- Reading a target, as a change. -/
theorem afterRead_does (t : FileTarget) (s : State) : Does { read := some t } s (afterRead t s) := by
  cases t <;> constructor <;>
    first
    | rfl
    | simp [afterRead, deviceRead, drawByte, Change.storedTo]

/-- Storing to a target, as a change. -/
theorem stored_does (t : FileTarget) (v : Byte) (s : State) :
    Does { store := some (t, v) } s (stored t v s) := by
  cases t <;> constructor <;>
    first
    | rfl
    | simp [stored, deviceWrite, Change.storedTo, State.ramByte_writeRam_getD]

/-- Reading a target and delivering a result, as a change. -/
theorem delivered_does (d : Dest) (t : FileTarget) (v : Byte) (s : State) :
    Does
      { w := if d = .w then some v else none
        store := if d = .f then some (t, v) else none
        read := some t } s (delivered d t v (afterRead t s)) := by
  cases d <;> cases t <;> constructor <;>
    first
    | rfl
    | simp [delivered, stored, afterRead, deviceRead, deviceWrite, drawByte, Change.storedTo,
        State.ramByte_writeRam_getD]

theorem Does.withFlags {x : Change} {s t : State} (h : Does x s t) (a b : Byte) (cin : Bool) :
    Does { x with
      c := some (carry8 a b cin), dc := some (carry4 a b cin), z := some (sum8 a b cin == 0#8) }
      s (flagsCDcZ a b cin t) :=
  ((h.withCarry _).withDigitCarry _).withZero _

/-! ## Addresses as numbers (R13, R42, R43, R139) -/

/-- The number a word of two parts stands for. -/
theorem toNat_append_eq {m n : Nat} (x : BitVec m) (y : BitVec n) :
    (x ++ y).toNat = 2 ^ n * x.toNat + y.toNat := by
  rw [BitVec.toNat_append, ← Nat.shiftLeft_add_eq_or_of_lt y.isLt, Nat.shiftLeft_eq, Nat.mul_comm]

theorem branchTarget_toNat (k : PageAddr) (s : State) :
    (branchTarget k s).toNat = 2048 * (s.pclath.toNat / 8) + k.toNat := by
  have hp := s.pclath.isLt
  refine (toNat_append_eq _ _).trans ?_
  rw [BitVec.extractLsb'_toNat, Nat.shiftRight_eq_div_pow]
  omega

theorem pclLoad_toNat (p : BitVec 5) (v : Byte) : (p ++ v : Pc).toNat = 256 * p.toNat + v.toNat :=
  toNat_append_eq p v

theorem indEA_toNat (s : State) : (indEA s).toNat = 256 * (s.status.toNat / 128) + s.fsr.toNat := by
  have hp := s.status.isLt
  refine (toNat_append_eq _ _).trans ?_
  rw [State.irp, BitVec.extractLsb'_toNat, Nat.shiftRight_eq_div_pow]
  omega

theorem dataEA_toNat (f : FileField) (s : State) :
    (dataEA f s).toNat = 128 * (s.status.toNat / 32 % 4) + f.toNat := by
  refine (toNat_append_eq _ _).trans ?_
  rw [State.rp, BitVec.extractLsb'_toNat, Nat.shiftRight_eq_div_pow]
  norm_num

/-! ## The dispatch of a well-formed configuration (R44, R45) -/

/-- The core registers' offsets differ, pair by pair. -/
structure OffsetsDiffer (c : Config) : Prop where
  pcl_indf : c.addrPcl ≠ c.addrIndf
  status_indf : statusOffset ≠ c.addrIndf
  status_pcl : statusOffset ≠ c.addrPcl
  fsr_indf : c.addrFsr ≠ c.addrIndf
  fsr_pcl : c.addrFsr ≠ c.addrPcl
  fsr_status : c.addrFsr ≠ statusOffset
  pclath_indf : c.addrPclath ≠ c.addrIndf
  pclath_pcl : c.addrPclath ≠ c.addrPcl
  pclath_status : c.addrPclath ≠ statusOffset
  pclath_fsr : c.addrPclath ≠ c.addrFsr
  intcon_indf : c.addrIntcon ≠ c.addrIndf
  intcon_pcl : c.addrIntcon ≠ c.addrPcl
  intcon_status : c.addrIntcon ≠ statusOffset
  intcon_fsr : c.addrIntcon ≠ c.addrFsr
  intcon_pclath : c.addrIntcon ≠ c.addrPclath

theorem offsetsDiffer {c : Config} (h : c.wf = true) : OffsetsDiffer c := by
  simp only [Config.wf, Bool.and_eq_true] at h
  have hn : c.coreOffsets.Nodup := of_decide_eq_true h.1
  simp only [Config.coreOffsets, List.nodup_cons, List.mem_cons, List.not_mem_nil, or_false, not_or] at hn
  obtain ⟨⟨a1, a2, a3, a4, a5⟩, ⟨b2, b3, b4, b5⟩, ⟨c3, c4, c5⟩, ⟨d4, d5⟩, e5, -⟩ := hn
  exact ⟨Ne.symm a1, Ne.symm a2, Ne.symm b2, Ne.symm a3, Ne.symm b3, Ne.symm c3, Ne.symm a4,
    Ne.symm b4, Ne.symm c4, Ne.symm d4, Ne.symm a5, Ne.symm b5, Ne.symm c5, Ne.symm d5, Ne.symm e5⟩

section
variable {a : DataAddr} {s : State}

theorem target_pcl (hc : s.cfg.wf = true) (h : bankOffset a = s.cfg.addrPcl) : target a s = .pcl := by
  have d := offsetsDiffer hc
  simp only [target, directTarget, h, d.pcl_indf, if_true, if_false]

theorem target_status (hc : s.cfg.wf = true) (h : bankOffset a = statusOffset) : target a s = .status := by
  have d := offsetsDiffer hc
  simp only [target, directTarget, h, d.status_indf, d.status_pcl, if_true, if_false]

theorem target_fsr (hc : s.cfg.wf = true) (h : bankOffset a = s.cfg.addrFsr) : target a s = .fsr := by
  have d := offsetsDiffer hc
  simp only [target, directTarget, h, d.fsr_indf, d.fsr_pcl, d.fsr_status, if_true, if_false]

theorem target_pclath (hc : s.cfg.wf = true) (h : bankOffset a = s.cfg.addrPclath) :
    target a s = .pclath := by
  have d := offsetsDiffer hc
  simp only [target, directTarget, h, d.pclath_indf, d.pclath_pcl, d.pclath_status, d.pclath_fsr,
    if_true, if_false]

theorem target_intcon (hc : s.cfg.wf = true) (h : bankOffset a = s.cfg.addrIntcon) :
    target a s = .intcon := by
  have d := offsetsDiffer hc
  simp only [target, directTarget, h, d.intcon_indf, d.intcon_pcl, d.intcon_status,
    d.intcon_fsr, d.intcon_pclath, if_true, if_false]

/-- At an offset of no core register, the file map says what is there. -/
theorem target_mapped (h : bankOffset a ∉ s.cfg.coreOffsets) :
    (∀ c, fileMapEntry s.cfg.fileMap a.toNat = .ram c → target a s = .ram c) ∧
    (∀ g, fileMapEntry s.cfg.fileMap a.toNat = .device g → target a s = .device g) ∧
    (fileMapEntry s.cfg.fileMap a.toNat = .unimplemented → target a s = .unimplemented a) := by
  simp only [Config.coreOffsets, List.mem_cons, List.not_mem_nil, or_false, not_or] at h
  obtain ⟨h1, h2, h3, h4, h5, h6⟩ := h
  refine ⟨fun c h => ?_, fun g h => ?_, fun h => ?_⟩ <;>
    simp only [target, directTarget, h1, h2, h3, h4, h5, h6, if_false, h]

end

end Sys2Proof.Machine
end

