-- ==== Sys2Proof/Laws/Exec.lean ====
section
/-! SUPPORT. What each instruction does, said once. The shapes of the file register instructions as
changes of named fields; then `exec_does` for every instruction that is no control instruction, and the
state each control instruction answers. Every frame statement about `exec` rests on these. -/

namespace Sys2Proof.Machine

/-! ## The shapes -/

section
variable {s t : State} {f : FileField} {d : Dest} {result : Byte → Byte}

/-- The change of reading `f` and delivering `result`, before anything comes last. -/
def plainChange (f : FileField) (d : Dest) (result : Byte → Byte) (s : State) : Change :=
  { w := if d = .w then some (result (valueAt (fileTarget f s) s)) else none
    store := if d = .f then some (fileTarget f s, result (valueAt (fileTarget f s) s)) else none
    read := some (fileTarget f s) }

theorem fileOp_plain (h : fileOp f d result (fun _ t => t) s = .next t) :
    Does (plainChange f d result s) s t := by
  obtain ⟨-, rfl⟩ := fileOp_next h
  exact delivered_does d _ _ s

theorem fileOp_flagZ {z : Byte → Byte} (h : fileOp f d result (fun v => flagZ (z v)) s = .next t) :
    Does { plainChange f d result s with z := some (z (valueAt (fileTarget f s) s) == 0#8) } s t := by
  obtain ⟨-, rfl⟩ := fileOp_next h
  exact (delivered_does d _ _ s).withZero _

theorem fileOp_carry {c : Byte → Bool} (h : fileOp f d result (fun v t => t.setCarry (c v)) s = .next t) :
    Does { plainChange f d result s with c := some (c (valueAt (fileTarget f s) s)) } s t := by
  obtain ⟨-, rfl⟩ := fileOp_next h
  exact (delivered_does d _ _ s).withCarry _

theorem fileOp_flags {a b : Byte → Byte} {cin : Bool}
    (h : fileOp f d result (fun v => flagsCDcZ (a v) (b v) cin) s = .next t) :
    Does { plainChange f d result s with
      c := some (carry8 (a (valueAt (fileTarget f s) s)) (b (valueAt (fileTarget f s) s)) cin)
      dc := some (carry4 (a (valueAt (fileTarget f s) s)) (b (valueAt (fileTarget f s) s)) cin)
      z := some (sum8 (a (valueAt (fileTarget f s) s)) (b (valueAt (fileTarget f s) s)) cin == 0#8) }
      s t := by
  obtain ⟨-, rfl⟩ := fileOp_next h
  exact (delivered_does d _ _ s).withFlags _ _ _

theorem fileOp_skip {k : Byte → Bool} (h : fileOp f d result (fun v => skipIf (k v)) s = .next t) :
    Does { plainChange f d result s with skip := k (valueAt (fileTarget f s) s) } s t := by
  obtain ⟨-, rfl⟩ := fileOp_next h
  exact (delivered_does d _ _ s).withSkip rfl _

theorem fileTest_does {k : Byte → Bool} (h : fileTest f k s = .next t) :
    Does { read := some (fileTarget f s), skip := k (valueAt (fileTarget f s) s) } s t := by
  obtain ⟨-, rfl⟩ := fileTest_next h
  exact (afterRead_does _ s).withSkip rfl _

theorem fileWrite_next {v : Byte} (h : fileWrite f v s = .next t) :
    Mapped f s ∧ t = stored (fileTarget f s) v s := by
  rcases mapped_or f s with hm | ⟨a, ha⟩
  · rw [fileWrite_eq hm] at h
    exact ⟨hm, by simpa using h.symm⟩
  · rw [fileWrite_fault ha] at h
    simp at h

theorem execClrf_does (h : execClrf f s = .next t) :
    Does { store := some (fileTarget f s, 0#8), z := some true } s t := by
  obtain ⟨u, hu, ht⟩ := andThen_eq_next.mp h
  obtain ⟨-, rfl⟩ := fileWrite_next hu
  obtain rfl := by simpa using ht.symm
  exact (stored_does _ _ s).withZero _

theorem execMovwf_does (h : execMovwf f s = .next t) :
    Does { store := some (fileTarget f s, s.w) } s t := by
  obtain ⟨-, rfl⟩ := fileWrite_next h
  exact stored_does _ _ s

end

/-! ## One lemma for each file register instruction -/

section
variable {s t : State} {f : FileField} {d : Dest} {b : BitNum}

theorem execAddwf_does (h : execAddwf f d s = .next t) :
    Does ({ plainChange f d (fun v => sum8 s.w v false) s with
      c := some (carry8 s.w (valueAt (fileTarget f s) s) false)
      dc := some (carry4 s.w (valueAt (fileTarget f s) s) false)
      z := some (sum8 s.w (valueAt (fileTarget f s) s) false == 0#8) }) s t := by
  unfold execAddwf at h
  exact fileOp_flags (a := fun _ => s.w) (b := fun v => v) h

theorem execSubwf_does (h : execSubwf f d s = .next t) :
    Does ({ plainChange f d (fun v => sum8 v (~~~s.w) true) s with
      c := some (carry8 (valueAt (fileTarget f s) s) (~~~s.w) true)
      dc := some (carry4 (valueAt (fileTarget f s) s) (~~~s.w) true)
      z := some (sum8 (valueAt (fileTarget f s) s) (~~~s.w) true == 0#8) }) s t := by
  unfold execSubwf at h
  exact fileOp_flags (a := fun v => v) (b := fun _ => ~~~s.w) h

theorem execAndwf_does (h : execAndwf f d s = .next t) :
    Does ({ plainChange f d (fun v => s.w &&& v) s with
      z := some (s.w &&& (valueAt (fileTarget f s) s) == 0#8) }) s t := by
  unfold execAndwf at h
  exact fileOp_flagZ h

theorem execIorwf_does (h : execIorwf f d s = .next t) :
    Does ({ plainChange f d (fun v => s.w ||| v) s with
      z := some (s.w ||| (valueAt (fileTarget f s) s) == 0#8) }) s t := by
  unfold execIorwf at h
  exact fileOp_flagZ h

theorem execXorwf_does (h : execXorwf f d s = .next t) :
    Does ({ plainChange f d (fun v => s.w ^^^ v) s with
      z := some (s.w ^^^ (valueAt (fileTarget f s) s) == 0#8) }) s t := by
  unfold execXorwf at h
  exact fileOp_flagZ h

theorem execComf_does (h : execComf f d s = .next t) :
    Does ({ plainChange f d (fun v => ~~~v) s with
      z := some (~~~(valueAt (fileTarget f s) s) == 0#8) }) s t := by
  unfold execComf at h
  exact fileOp_flagZ h

theorem execDecf_does (h : execDecf f d s = .next t) :
    Does ({ plainChange f d (fun v => v - 1#8) s with
      z := some ((valueAt (fileTarget f s) s) - 1#8 == 0#8) }) s t := by
  unfold execDecf at h
  exact fileOp_flagZ h

theorem execIncf_does (h : execIncf f d s = .next t) :
    Does ({ plainChange f d (fun v => v + 1#8) s with
      z := some ((valueAt (fileTarget f s) s) + 1#8 == 0#8) }) s t := by
  unfold execIncf at h
  exact fileOp_flagZ h

theorem execMovf_does (h : execMovf f d s = .next t) :
    Does ({ plainChange f d (fun v => v) s with
      z := some ((valueAt (fileTarget f s) s) == 0#8) }) s t := by
  unfold execMovf at h
  exact fileOp_flagZ (z := fun v => v) h

theorem execDecfsz_does (h : execDecfsz f d s = .next t) :
    Does ({ plainChange f d (fun v => v - 1#8) s with
      skip := (valueAt (fileTarget f s) s) - 1#8 == 0#8 }) s t := by
  unfold execDecfsz at h
  exact fileOp_skip h

theorem execIncfsz_does (h : execIncfsz f d s = .next t) :
    Does ({ plainChange f d (fun v => v + 1#8) s with
      skip := (valueAt (fileTarget f s) s) + 1#8 == 0#8 }) s t := by
  unfold execIncfsz at h
  exact fileOp_skip h

theorem execRlf_does (h : execRlf f d s = .next t) :
    Does ({ plainChange f d (fun v => v.extractLsb' 0 7 ++ BitVec.ofBool s.carry) s with
      c := some ((valueAt (fileTarget f s) s).getLsbD 7) }) s t := by
  unfold execRlf at h
  exact fileOp_carry h

theorem execRrf_does (h : execRrf f d s = .next t) :
    Does ({ plainChange f d (fun v => BitVec.ofBool s.carry ++ v.extractLsb' 1 7) s with
      c := some ((valueAt (fileTarget f s) s).getLsbD 0) }) s t := by
  unfold execRrf at h
  exact fileOp_carry h

theorem execSwapf_does (h : execSwapf f d s = .next t) :
    Does (plainChange f d (fun v => v.extractLsb' 0 4 ++ v.extractLsb' 4 4) s) s t := by
  unfold execSwapf at h
  exact fileOp_plain h

theorem execBcf_does (h : execBcf f b s = .next t) :
    Does (plainChange f .f (fun v => setBit v b.toNat false) s) s t := by
  unfold execBcf at h
  exact fileOp_plain h

theorem execBsf_does (h : execBsf f b s = .next t) :
    Does (plainChange f .f (fun v => setBit v b.toNat true) s) s t := by
  unfold execBsf at h
  exact fileOp_plain h

theorem execBtfsc_does (h : execBtfsc f b s = .next t) :
    Does { read := some (fileTarget f s), skip := !(valueAt (fileTarget f s) s).getLsbD b.toNat } s t := by
  unfold execBtfsc at h
  exact fileTest_does h

theorem execBtfss_does (h : execBtfss f b s = .next t) :
    Does { read := some (fileTarget f s), skip := (valueAt (fileTarget f s) s).getLsbD b.toNat } s t := by
  unfold execBtfss at h
  exact fileTest_does h

end

/-! ## Every instruction but the control instructions -/

/-- A change that fits what the tables of Safety.lean say of an instruction. -/
structure Fits (x : Change) (i : Instr) (s : State) : Prop where
  store : x.store.map Prod.fst = storesTo i s
  w : writesW i = false → x.w = none
  z : writesZero i = false → x.z = none
  c : writesCarry i = false → x.c = none
  dc : writesDigitCarry i = false → x.dc = none

/-- The control instructions of 44_control_operations.md. -/
def isControl (i : Instr) : Bool :=
  match i with
  | .call _ | .goto _ | .ret | .retlw _ | .retfie | .clrwdt | .sleep => true
  | .addwf _ _ | .andwf _ _ | .clrf _ | .clrw | .comf _ _ | .decf _ _ | .decfsz _ _ | .incf _ _
  | .incfsz _ _ | .iorwf _ _ | .movf _ _ | .movwf _ | .nop | .rlf _ _ | .rrf _ _ | .subwf _ _
  | .swapf _ _ | .xorwf _ _ | .bcf _ _ | .bsf _ _ | .btfsc _ _ | .btfss _ _ | .addlw _ | .andlw _
  | .iorlw _ | .movlw _ | .sublw _ | .xorlw _ => false

theorem storeIf_fst (d : Dest) (u : FileTarget) (v : Byte) :
    (if d = .f then some (u, v) else none).map Prod.fst = if d = .f then some u else none := by
  cases d <;> rfl

/-- An instruction that completes and is no control instruction changes the fields its change names,
and no other. -/
theorem exec_does {i : Instr} {s t : State} (h : exec i s = .next t) (hc : isControl i = false) :
    ∃ x, Does x s t ∧ Fits x i s := by
  cases i with
  | addwf f d =>
    exact ⟨_, execAddwf_does h, storeIf_fst .., fun hd => if_neg (of_decide_eq_false hd), nofun, nofun, nofun⟩
  | subwf f d =>
    exact ⟨_, execSubwf_does h, storeIf_fst .., fun hd => if_neg (of_decide_eq_false hd), nofun, nofun, nofun⟩
  | andwf f d =>
    exact ⟨_, execAndwf_does h, storeIf_fst .., fun hd => if_neg (of_decide_eq_false hd), nofun, fun _ => rfl, fun _ => rfl⟩
  | iorwf f d =>
    exact ⟨_, execIorwf_does h, storeIf_fst .., fun hd => if_neg (of_decide_eq_false hd), nofun, fun _ => rfl, fun _ => rfl⟩
  | xorwf f d =>
    exact ⟨_, execXorwf_does h, storeIf_fst .., fun hd => if_neg (of_decide_eq_false hd), nofun, fun _ => rfl, fun _ => rfl⟩
  | comf f d =>
    exact ⟨_, execComf_does h, storeIf_fst .., fun hd => if_neg (of_decide_eq_false hd), nofun, fun _ => rfl, fun _ => rfl⟩
  | decf f d =>
    exact ⟨_, execDecf_does h, storeIf_fst .., fun hd => if_neg (of_decide_eq_false hd), nofun, fun _ => rfl, fun _ => rfl⟩
  | incf f d =>
    exact ⟨_, execIncf_does h, storeIf_fst .., fun hd => if_neg (of_decide_eq_false hd), nofun, fun _ => rfl, fun _ => rfl⟩
  | movf f d =>
    exact ⟨_, execMovf_does h, storeIf_fst .., fun hd => if_neg (of_decide_eq_false hd), nofun, fun _ => rfl, fun _ => rfl⟩
  | decfsz f d =>
    exact ⟨_, execDecfsz_does h, storeIf_fst .., fun hd => if_neg (of_decide_eq_false hd), fun _ => rfl, fun _ => rfl, fun _ => rfl⟩
  | incfsz f d =>
    exact ⟨_, execIncfsz_does h, storeIf_fst .., fun hd => if_neg (of_decide_eq_false hd), fun _ => rfl, fun _ => rfl, fun _ => rfl⟩
  | rlf f d =>
    exact ⟨_, execRlf_does h, storeIf_fst .., fun hd => if_neg (of_decide_eq_false hd), fun _ => rfl, nofun, fun _ => rfl⟩
  | rrf f d =>
    exact ⟨_, execRrf_does h, storeIf_fst .., fun hd => if_neg (of_decide_eq_false hd), fun _ => rfl, nofun, fun _ => rfl⟩
  | swapf f d =>
    exact ⟨_, execSwapf_does h, storeIf_fst .., fun hd => if_neg (of_decide_eq_false hd), fun _ => rfl, fun _ => rfl, fun _ => rfl⟩
  | bcf f b => exact ⟨_, execBcf_does h, rfl, fun _ => rfl, fun _ => rfl, fun _ => rfl, fun _ => rfl⟩
  | bsf f b => exact ⟨_, execBsf_does h, rfl, fun _ => rfl, fun _ => rfl, fun _ => rfl, fun _ => rfl⟩
  | btfsc f b => exact ⟨_, execBtfsc_does h, rfl, fun _ => rfl, fun _ => rfl, fun _ => rfl, fun _ => rfl⟩
  | btfss f b => exact ⟨_, execBtfss_does h, rfl, fun _ => rfl, fun _ => rfl, fun _ => rfl, fun _ => rfl⟩
  | clrf f => exact ⟨_, execClrf_does h, rfl, fun _ => rfl, nofun, fun _ => rfl, fun _ => rfl⟩
  | movwf f =>
    exact ⟨_, execMovwf_does h, rfl, fun _ => rfl, fun _ => rfl, fun _ => rfl, fun _ => rfl⟩
  | clrw =>
    obtain rfl := by simpa [exec, execClrw] using h.symm
    exact ⟨_, ((Does.nothing s).withW _).withZero _, rfl, nofun, nofun, fun _ => rfl, fun _ => rfl⟩
  | nop =>
    obtain rfl := by simpa [exec, execNop] using h.symm
    exact ⟨_, Does.nothing _, rfl, fun _ => rfl, fun _ => rfl, fun _ => rfl, fun _ => rfl⟩
  | addlw k =>
    obtain rfl := by simpa [exec, execAddlw] using h.symm
    exact ⟨_, ((Does.nothing s).withFlags _ _ _).withW _, rfl, nofun, nofun, nofun, nofun⟩
  | sublw k =>
    obtain rfl := by simpa [exec, execSublw] using h.symm
    exact ⟨_, ((Does.nothing s).withFlags _ _ _).withW _, rfl, nofun, nofun, nofun, nofun⟩
  | andlw k =>
    obtain rfl := by simpa [exec, execAndlw] using h.symm
    exact ⟨_, ((Does.nothing s).withW _).withZero _, rfl, nofun, nofun, fun _ => rfl, fun _ => rfl⟩
  | iorlw k =>
    obtain rfl := by simpa [exec, execIorlw] using h.symm
    exact ⟨_, ((Does.nothing s).withW _).withZero _, rfl, nofun, nofun, fun _ => rfl, fun _ => rfl⟩
  | xorlw k =>
    obtain rfl := by simpa [exec, execXorlw] using h.symm
    exact ⟨_, ((Does.nothing s).withW _).withZero _, rfl, nofun, nofun, fun _ => rfl, fun _ => rfl⟩
  | movlw k =>
    obtain rfl := by simpa [exec, execMovlw] using h.symm
    exact ⟨_, (Does.nothing s).withW _, rfl, nofun, fun _ => rfl, fun _ => rfl, fun _ => rfl⟩
  | call _ | goto _ | ret | retlw _ | retfie | clrwdt | sleep => simp [isControl] at hc

/-! ## The control instructions -/

section
variable {s t : State} {k : PageAddr} {b : Byte}

theorem execCall_next (h : execCall k s = .next t) :
    ∃ u, push s.pc s = .next u ∧ t = u.setPc (branchTarget k u) := by
  obtain ⟨u, hu, ht⟩ := andThen_eq_next.mp h
  exact ⟨u, hu, by simpa using ht.symm⟩

theorem execRetfie_next (h : execRetfie s = .next t) :
    ∃ r, pop s = .next r ∧ t = (r.2.setPc r.1).setGie true := by
  obtain ⟨u, hu, ht⟩ := andThen_eq_next.mp h
  obtain ⟨r, hr, rfl⟩ := popPc_next hu
  exact ⟨r, hr, by simpa using ht.symm⟩

end

/-- What a pop leaves alone. -/
structure PopFrame (s u : State) : Prop where
  w : u.w = s.w
  pc : u.pc = s.pc
  status : u.status = s.status
  pclath : u.pclath = s.pclath
  intcon : u.intcon = s.intcon
  fsr : u.fsr = s.fsr
  data : u.data = s.data
  code : u.code = s.code
  asleep : u.asleep = s.asleep
  wdt : u.wdt = s.wdt
  irq : u.irq = s.irq
  cfg : u.cfg = s.cfg
  env : u.env = s.env
  powerUps : u.powerUps = s.powerUps
  deviceLog : u.deviceLog = s.deviceLog

theorem pop_frame {s : State} {r : Pc × State} (h : pop s = .next r) : PopFrame s r.2 := by
  rcases pop_next h with ⟨rest, -, -, h2⟩ | ⟨-, -, h2⟩ | ⟨-, -, -, h2⟩ <;> rw [h2] <;> constructor <;> rfl

theorem pop_stack_length {s : State} {r : Pc × State} (h : pop s = .next r) :
    r.2.stack.length ≤ s.stack.length := by
  rcases pop_next h with ⟨rest, -, hs, h2⟩ | ⟨-, -, h2⟩ | ⟨-, -, -, h2⟩ <;> rw [h2] <;> simp_all

theorem push_frame {v : Pc} {s t : State} (h : push v s = .next t) : PopFrame s t := by
  rcases push_next h with ⟨-, -, rfl⟩ | ⟨-, rfl⟩ <;> constructor <;> rfl

/-- What a control instruction leaves alone. -/
structure ControlFrame (i : Instr) (s t : State) : Prop where
  w : (∀ k, i ≠ .retlw k) → t.w = s.w
  status : i ≠ .clrwdt → i ≠ .sleep → t.status = s.status
  pclath : t.pclath = s.pclath
  intcon : i ≠ .retfie → t.intcon = s.intcon
  fsr : t.fsr = s.fsr
  data : t.data = s.data
  code : t.code = s.code
  asleep : i ≠ .sleep → t.asleep = s.asleep
  wdt : i ≠ .clrwdt → i ≠ .sleep → t.wdt = s.wdt
  irq : t.irq = s.irq
  cfg : t.cfg = s.cfg
  env : t.env = s.env
  powerUps : t.powerUps = s.powerUps
  deviceLog : t.deviceLog = s.deviceLog

theorem exec_control {i : Instr} {s t : State} (h : exec i s = .next t) (hc : isControl i = true) :
    ControlFrame i s t := by
  cases i with
  | call k =>
    obtain ⟨u, hu, rfl⟩ := execCall_next h
    have f := push_frame hu
    exact ⟨fun _ => f.w, fun _ _ => f.status, f.pclath, fun _ => f.intcon, f.fsr, f.data, f.code,
      fun _ => f.asleep, fun _ _ => f.wdt, f.irq, f.cfg, f.env, f.powerUps, f.deviceLog⟩
  | ret =>
    obtain ⟨r, hr, rfl⟩ := popPc_next h
    have f := pop_frame hr
    exact ⟨fun _ => f.w, fun _ _ => f.status, f.pclath, fun _ => f.intcon, f.fsr, f.data, f.code,
      fun _ => f.asleep, fun _ _ => f.wdt, f.irq, f.cfg, f.env, f.powerUps, f.deviceLog⟩
  | retlw k =>
    obtain ⟨r, hr, rfl⟩ := popPc_next h
    have f := pop_frame hr
    exact ⟨fun hk => absurd rfl (hk k), fun _ _ => f.status, f.pclath, fun _ => f.intcon, f.fsr, f.data,
      f.code, fun _ => f.asleep, fun _ _ => f.wdt, f.irq, f.cfg, f.env, f.powerUps, f.deviceLog⟩
  | retfie =>
    obtain ⟨r, hr, rfl⟩ := execRetfie_next h
    have f := pop_frame hr
    exact ⟨fun _ => f.w, fun _ _ => f.status, f.pclath, fun hi => absurd rfl hi, f.fsr, f.data, f.code,
      fun _ => f.asleep, fun _ _ => f.wdt, f.irq, f.cfg, f.env, f.powerUps, f.deviceLog⟩
  | goto k =>
    obtain rfl := by simpa [exec, execGoto] using h.symm
    constructor <;> intros <;> rfl
  | clrwdt =>
    obtain rfl := by simpa [exec, execClrwdt] using h.symm
    constructor <;> first | rfl | (intros; first | rfl | contradiction)
  | sleep =>
    obtain rfl := by simpa [exec, execSleep] using h.symm
    constructor <;> first | rfl | (intros; first | rfl | contradiction)
  | _ => simp [isControl] at hc

end Sys2Proof.Machine
end

