-- ==== Sys2Proof/Laws/PerInstr.lean ====
section
/-! SUPPORT. Statements about every instruction as syntax, one lemma for each constructor. Family
`TableRow`: the word `encode` gives an instruction belongs to the instruction's row of the opcode
table, `w & mask == match` (30_encoding.md R64). -/

namespace Sys2Proof.Laws.TableRow

open Sys2Proof

def Statement (i : Instr) : Prop := i.row.holds (encode i) = true

/-! ## The masks of the formats keep the opcode -/

theorem mask_byteWord (o : BitVec 6) (x : BitVec 1) (f : FileField) :
    (o ++ x ++ f : CodeWord) &&& 0x3F00#14 = o ++ 0#1 ++ 0#7 := by
  have hm : (0x3F00#14 : CodeWord) = 0b111111#6 ++ 0#1 ++ 0#7 := by decide
  rw [hm, BitVec.and_append, BitVec.and_append, BitVec.and_zero, BitVec.and_zero]
  congr 2
  exact BitVec.and_allOnes

theorem mask_fileWord (o : BitVec 7) (f : FileField) : (o ++ f : CodeWord) &&& 0x3F80#14 = o ++ 0#7 := by
  have hm : (0x3F80#14 : CodeWord) = 0b1111111#7 ++ 0#7 := by decide
  rw [hm, BitVec.and_append, BitVec.and_zero]
  congr 1
  exact BitVec.and_allOnes

theorem mask_bitWord (o : BitVec 4) (b : BitNum) (f : FileField) :
    (o ++ b ++ f : CodeWord) &&& 0x3C00#14 = o ++ 0#3 ++ 0#7 := by
  have hm : (0x3C00#14 : CodeWord) = 0b1111#4 ++ 0#3 ++ 0#7 := by decide
  rw [hm, BitVec.and_append, BitVec.and_append, BitVec.and_zero, BitVec.and_zero]
  congr 2
  exact BitVec.and_allOnes

theorem mask_literalWord (o m : BitVec 6) (k : Byte) :
    (o ++ k : CodeWord) &&& (m ++ 0#8) = (o &&& m) ++ 0#8 := by
  rw [BitVec.and_append, BitVec.and_zero]

theorem mask_jumpWord (o : BitVec 3) (k : PageAddr) : (o ++ k : CodeWord) &&& 0x3800#14 = o ++ 0#11 := by
  have hm : (0x3800#14 : CodeWord) = 0b111#3 ++ 0#11 := by decide
  rw [hm, BitVec.and_append, BitVec.and_zero]
  congr 1
  exact BitVec.and_allOnes

theorem holds_of_eq {r : OpcodeRow} {w : CodeWord} (h : w &&& r.mask = r.pattern) : r.holds w = true :=
  beq_iff_eq.mpr h

/-! ## The lemmas -/

theorem addwf (f : FileField) (d : Dest) : Statement (.addwf f d) :=
  holds_of_eq (mask_byteWord _ d.bit f)

theorem andwf (f : FileField) (d : Dest) : Statement (.andwf f d) :=
  holds_of_eq (mask_byteWord _ d.bit f)

theorem clrf (f : FileField) : Statement (.clrf f) :=
  holds_of_eq (mask_fileWord _ f)

theorem clrw : Statement .clrw := by
  unfold Statement
  decide

theorem comf (f : FileField) (d : Dest) : Statement (.comf f d) :=
  holds_of_eq (mask_byteWord _ d.bit f)

theorem decf (f : FileField) (d : Dest) : Statement (.decf f d) :=
  holds_of_eq (mask_byteWord _ d.bit f)

theorem decfsz (f : FileField) (d : Dest) : Statement (.decfsz f d) :=
  holds_of_eq (mask_byteWord _ d.bit f)

theorem incf (f : FileField) (d : Dest) : Statement (.incf f d) :=
  holds_of_eq (mask_byteWord _ d.bit f)

theorem incfsz (f : FileField) (d : Dest) : Statement (.incfsz f d) :=
  holds_of_eq (mask_byteWord _ d.bit f)

theorem iorwf (f : FileField) (d : Dest) : Statement (.iorwf f d) :=
  holds_of_eq (mask_byteWord _ d.bit f)

theorem movf (f : FileField) (d : Dest) : Statement (.movf f d) :=
  holds_of_eq (mask_byteWord _ d.bit f)

theorem movwf (f : FileField) : Statement (.movwf f) :=
  holds_of_eq (mask_fileWord _ f)

theorem nop : Statement .nop := by
  unfold Statement
  decide

theorem rlf (f : FileField) (d : Dest) : Statement (.rlf f d) :=
  holds_of_eq (mask_byteWord _ d.bit f)

theorem rrf (f : FileField) (d : Dest) : Statement (.rrf f d) :=
  holds_of_eq (mask_byteWord _ d.bit f)

theorem subwf (f : FileField) (d : Dest) : Statement (.subwf f d) :=
  holds_of_eq (mask_byteWord _ d.bit f)

theorem swapf (f : FileField) (d : Dest) : Statement (.swapf f d) :=
  holds_of_eq (mask_byteWord _ d.bit f)

theorem xorwf (f : FileField) (d : Dest) : Statement (.xorwf f d) :=
  holds_of_eq (mask_byteWord _ d.bit f)

theorem bcf (f : FileField) (b : BitNum) : Statement (.bcf f b) :=
  holds_of_eq (mask_bitWord _ b f)

theorem bsf (f : FileField) (b : BitNum) : Statement (.bsf f b) :=
  holds_of_eq (mask_bitWord _ b f)

theorem btfsc (f : FileField) (b : BitNum) : Statement (.btfsc f b) :=
  holds_of_eq (mask_bitWord _ b f)

theorem btfss (f : FileField) (b : BitNum) : Statement (.btfss f b) :=
  holds_of_eq (mask_bitWord _ b f)

theorem addlw (k : Byte) : Statement (.addlw k) :=
  holds_of_eq (mask_literalWord _ 0b111110#6 k)

theorem andlw (k : Byte) : Statement (.andlw k) :=
  holds_of_eq (mask_literalWord _ 0b111111#6 k)

theorem call (k : PageAddr) : Statement (.call k) :=
  holds_of_eq (mask_jumpWord _ k)

theorem clrwdt : Statement .clrwdt := by
  unfold Statement
  decide

theorem goto (k : PageAddr) : Statement (.goto k) :=
  holds_of_eq (mask_jumpWord _ k)

theorem iorlw (k : Byte) : Statement (.iorlw k) :=
  holds_of_eq (mask_literalWord _ 0b111111#6 k)

theorem movlw (k : Byte) : Statement (.movlw k) :=
  holds_of_eq (mask_literalWord _ 0b111100#6 k)

theorem retfie : Statement .retfie := by
  unfold Statement
  decide

theorem retlw (k : Byte) : Statement (.retlw k) :=
  holds_of_eq (mask_literalWord _ 0b111100#6 k)

theorem ret : Statement .ret := by
  unfold Statement
  decide

theorem sleep : Statement .sleep := by
  unfold Statement
  decide

theorem sublw (k : Byte) : Statement (.sublw k) :=
  holds_of_eq (mask_literalWord _ 0b111110#6 k)

theorem xorlw (k : Byte) : Statement (.xorlw k) :=
  holds_of_eq (mask_literalWord _ 0b111111#6 k)

end Sys2Proof.Laws.TableRow
end

