-- ==== Sys2Proof/Laws/Step.lean ====
section
/-! SUPPORT. What a step can do, said once: whose turn it is, what the awake CPU's step can answer, and
what the environment's events leave alone. -/

namespace Sys2Proof.Machine

/-- Everything a step that answers can be: a CPU step at the state with its turn taken, or an event. -/
theorem step_next {s t : State} (h : step s = .next t) :
    (∃ rest, (s.env = [] ∧ rest = [] ∨ s.env = .cpu :: rest) ∧ cpuStep (s.setEnv rest) = .next t) ∨
    (∃ e rest, s.env = .environment e :: rest ∧ t = applyEvent e (s.setEnv rest)) := by
  unfold step scheduledStep at h
  split at h
  · rename_i he
    refine .inl ⟨[], .inl ⟨he, rfl⟩, ?_⟩
    have : s.setEnv [] = s := by cases s; simp_all [State.setEnv]
    rwa [this]
  · exact .inl ⟨_, .inr ‹_›, h⟩
  · exact .inr ⟨_, _, ‹_›, by simpa using h.symm⟩

/-- Everything the CPU's step can answer. -/
theorem cpuStep_next {s t : State} (h : cpuStep s = .next t) :
    (s.asleep = true ∧ t = sleepStep s) ∨
    (s.asleep = false ∧ ∃ i u, decode (s.progRead s.pc) = .ok i ∧ exec i (advance s) = .next u ∧
      interruptCheck u = .next t) := by
  unfold cpuStep at h
  split at h
  · exact .inl ⟨‹_›, by simpa using h.symm⟩
  · refine .inr ⟨(Bool.not_eq_true _).mp ‹¬ s.asleep = true›, ?_⟩
    unfold awakeStep at h
    split at h
    · simp at h
    · obtain ⟨u, hu, ht⟩ := andThen_eq_next.mp h
      exact ⟨_, u, ‹_›, hu, ht⟩

theorem step_of_environment {s : State} {e : EnvEvent} {rest : List Turn}
    (h : s.env = .environment e :: rest) : step s = .next (applyEvent e (s.setEnv rest)) := by
  simp [step, scheduledStep, h]

theorem runSteps_zero (s : State) : runSteps 0 s = .next s := rfl

theorem runSteps_step (k : Nat) (s : State) : runSteps (k + 1) s = andThen (step s) (runSteps k) := rfl

theorem runSteps_succ {s t : State} (h : step s = .next t) (k : Nat) :
    runSteps (k + 1) s = runSteps k t := by
  rw [runSteps_step, h, andThen_next]

/-! ## Well-formedness -/

theorem State.Wf.of_eq {s t : State} (h : s.Wf) (hd : t.data.wf = true) (hc : t.code = s.code)
    (hs : t.stack.length ≤ 8) (hg : t.cfg = s.cfg) : t.Wf :=
  ⟨hd, by rw [hc, hg]; exact h.code, hs, by rw [hg]; exact h.cfg⟩

theorem stored_wf {s : State} (h : s.Wf) (u : FileTarget) (v : Byte) : (stored u v s).Wf := by
  cases u with
  | ram c => exact h.of_eq (Memory.wf_write h.data c v) rfl h.stack rfl
  | _ => exact h.of_eq h.data rfl h.stack rfl

theorem afterRead_wf {s : State} (h : s.Wf) (u : FileTarget) : (afterRead u s).Wf := by
  cases u <;> exact h.of_eq h.data rfl h.stack rfl

theorem delivered_wf {s : State} (h : s.Wf) (d : Dest) (u : FileTarget) (v : Byte) :
    (delivered d u v s).Wf := by
  cases d
  · exact h.of_eq h.data rfl h.stack rfl
  · exact stored_wf h u v

theorem push_wf {v : Pc} {s t : State} (h : s.Wf) (hp : push v s = .next t) : t.Wf := by
  rcases push_next hp with ⟨-, hl, rfl⟩ | ⟨-, rfl⟩
  · exact h.of_eq h.data rfl (by simpa using hl) rfl
  · exact h.of_eq h.data rfl h.stack rfl

theorem pop_wf {s : State} {r : Pc × State} (h : s.Wf) (hp : pop s = .next r) : r.2.Wf := by
  have hf := pop_frame hp
  exact h.of_eq (by rw [hf.data]; exact h.data) hf.code ((pop_stack_length hp).trans h.stack) hf.cfg

/-! ## The request line and the schedule -/

theorem exec_irq_env {i : Instr} {s t : State} (h : exec i s = .next t) : t.irq = s.irq ∧ t.env = s.env := by
  cases hc : isControl i with
  | true => exact ⟨(exec_control h hc).irq, (exec_control h hc).env⟩
  | false =>
    obtain ⟨x, hx, -⟩ := exec_does h hc
    exact ⟨hx.irq, hx.env⟩

theorem interruptCheck_irq_env {s t : State} (h : interruptCheck s = .next t) :
    t.irq = s.irq ∧ t.env = s.env := by
  rcases interruptCheck_next h with rfl | ⟨-, -, -, h⟩
  · exact ⟨rfl, rfl⟩
  · obtain ⟨u, hu, rfl⟩ := takeInterrupt_next h
    exact ⟨(push_frame hu).irq, (push_frame hu).env⟩

/-- The CPU's step moves neither the request line nor the schedule. -/
theorem cpuStep_irq_env {s t : State} (h : cpuStep s = .next t) : t.irq = s.irq ∧ t.env = s.env := by
  rcases cpuStep_next h with ⟨-, rfl⟩ | ⟨-, i, u, -, hu, ht⟩
  · exact ⟨rfl, rfl⟩
  · have a := exec_irq_env hu
    have b := interruptCheck_irq_env ht
    exact ⟨b.1.trans a.1, b.2.trans a.2⟩

theorem applyEvent_env (e : EnvEvent) (s : State) : (applyEvent e s).env = s.env := by
  cases e with
  | watchdogTimeout => rcases watchdogTimeout_cases s with h | h | h <;> simp [applyEvent, h]
  | _ => rfl

/-- An event that does not raise the request line leaves it at 0. -/
theorem applyEvent_irq_low {e : EnvEvent} {s : State} (hi : s.irq = false)
    (he : Turn.raisesRequest (.environment e) = false) : (applyEvent e s).irq = false := by
  cases e with
  | watchdogTimeout => rcases watchdogTimeout_cases s with h | h | h <;> simp [applyEvent, h, hi]
  | _ => first | exact he | exact hi

theorem State.irqStaysLow_cons {s : State} {t : Turn} {rest : List Turn} (he : s.env = t :: rest)
    (h : s.irqStaysLow = true) :
    s.irq = false ∧ t.raisesRequest = false ∧ (s.setEnv rest).irqStaysLow = true := by
  simp_all [State.irqStaysLow]

theorem State.irqStaysLow_of_eq {s t : State} (h : s.irqStaysLow = true) (hi : t.irq = s.irq)
    (he : t.env = s.env) : t.irqStaysLow = true := by
  rw [State.irqStaysLow, hi, he]
  exact h

/-- A step keeps the request line low from then on (70_reset_and_hazards.md R183). -/
theorem step_irqStaysLow {s t : State} (h : s.irqStaysLow = true) (hs : step s = .next t) :
    t.irqStaysLow = true := by
  rcases step_next hs with ⟨rest, he, ht⟩ | ⟨e, rest, he, rfl⟩
  · have a := cpuStep_irq_env ht
    refine State.irqStaysLow_of_eq (s := s.setEnv rest) ?_ a.1 a.2
    rcases he with ⟨he, rfl⟩ | he
    · simp_all [State.irqStaysLow]
    · exact (State.irqStaysLow_cons he h).2.2
  · obtain ⟨hi, hr, hl⟩ := State.irqStaysLow_cons he h
    have hi' : (applyEvent e (s.setEnv rest)).irq = false := applyEvent_irq_low hi hr
    exact State.irqStaysLow_of_eq hl (hi'.trans hi.symm) (applyEvent_env e _)

end Sys2Proof.Machine
end

