-- ==== Sys2Proof/Machine/Listing.lean ====
section
/-! DEFINITION. How the source writes instructions (30_encoding.md R70), how it groups them (R72), and
a program placed at its addresses (R71, `ORG`). No step uses this file. -/

namespace Sys2Proof.Machine

/-- The three groups by format (R72). -/
inductive FormatGroup where
  | fileOriented
  | bitOriented
  | literalControl
deriving DecidableEq, Repr

/-- The five groups by function (R72). -/
inductive FunctionGroup where
  | transfer
  | bitOriented
  | arithmetic
  | logic
  | control
deriving DecidableEq, Repr

/-- The group of the opcode table (30_encoding.md R64). -/
def formatGroup (i : Instr) : FormatGroup :=
  match i with
  | .addwf _ _ | .andwf _ _ | .clrf _ | .clrw | .comf _ _ | .decf _ _ | .decfsz _ _ | .incf _ _
  | .incfsz _ _ | .iorwf _ _ | .movf _ _ | .movwf _ | .nop | .rlf _ _ | .rrf _ _ | .subwf _ _
  | .swapf _ _ | .xorwf _ _ => .fileOriented
  | .bcf _ _ | .bsf _ _ | .btfsc _ _ | .btfss _ _ => .bitOriented
  | .addlw _ | .andlw _ | .call _ | .clrwdt | .goto _ | .iorlw _ | .movlw _ | .retfie | .retlw _
  | .ret | .sleep | .sublw _ | .xorlw _ => .literalControl

/-- The group by function (R72). -/
def functionGroup (i : Instr) : FunctionGroup :=
  match i with
  | .movlw _ | .movf _ _ | .movwf _ => .transfer
  | .bcf _ _ | .bsf _ _ | .btfsc _ _ | .btfss _ _ => .bitOriented
  | .addlw _ | .addwf _ _ | .sublw _ | .subwf _ _ | .incf _ _ | .decf _ _ | .incfsz _ _
  | .decfsz _ _ | .clrf _ | .clrw => .arithmetic
  | .andlw _ | .andwf _ _ | .iorlw _ | .iorwf _ _ | .xorlw _ | .xorwf _ _ | .comf _ _ | .rlf _ _
  | .rrf _ _ | .swapf _ _ => .logic
  | .goto _ | .call _ | .ret | .retlw _ | .retfie | .nop | .sleep | .clrwdt => .control

/-- A number as the source writes it, `0x0C` (R70). -/
def hexText (n : Nat) : String :=
  "0x" ++ String.ofList (Nat.toDigits 16 n)

/-- The destination as the source writes it (R70). -/
def destText (d : Dest) : String :=
  match d with
  | .w => "W"
  | .f => "F"

/-- The operands in the order of the table's column (R70). -/
def operandText (i : Instr) : List String :=
  match i with
  | .addwf f d | .andwf f d | .comf f d | .decf f d | .decfsz f d | .incf f d | .incfsz f d
  | .iorwf f d | .movf f d | .rlf f d | .rrf f d | .subwf f d | .swapf f d | .xorwf f d =>
    [hexText f.toNat, destText d]
  | .clrf f | .movwf f => [hexText f.toNat]
  | .bcf f b | .bsf f b | .btfsc f b | .btfss f b => [hexText f.toNat, toString b.toNat]
  | .addlw k | .andlw k | .iorlw k | .movlw k | .retlw k | .sublw k | .xorlw k => [hexText k.toNat]
  | .call k | .goto k => [hexText k.toNat]
  | .clrw | .nop | .clrwdt | .retfie | .ret | .sleep => []

/-- One line of assembler text (R70). -/
def asmText (i : Instr) : String :=
  match operandText i with
  | [] => i.mnemonic
  | ops => i.mnemonic ++ " " ++ String.intercalate "," ops

/-- The literal the assembler puts in CALL and GOTO: the low 11 bits of the target (R70). -/
def assembledTarget (target : Pc) : PageAddr := target.extractLsb' 0 11

/-- Instructions placed one after the other from `origin` on (R71, `ORG`), before a run. -/
def placeProgram (origin : Pc) (program : List Instr) (s : State) : State :=
  match program with
  | [] => s
  | i :: rest => placeProgram (origin + 1#13) rest (s.placeCode origin (encode i))

end Sys2Proof.Machine
end

