-- ==== Sys2Proof/Tests/Slice0.lean ====
section
/-! SUPPORT. The model's own tests. Expected results come from 95_test_vectors.md (the section is named
with each group) and from the encodings of 30_encoding.md. Then, for each obligation with hypotheses,
a concrete state that meets them. -/

namespace Sys2Proof.Tests

open Sys2Proof.Machine Sys2Proof.Claims

/-! ## Well-formedness: each check refuses an ill-formed configuration -/

theorem test_default_configuration_is_admitted : Config.default.wf = true := by decide

theorem test_two_registers_at_one_offset_are_refused :
    ({ Config.default with addrFsr := 0x02#7 } : Config).wf = false := by decide

theorem test_a_register_at_the_offset_of_status_is_refused :
    ({ Config.default with addrIntcon := 0x03#7 } : Config).wf = false := by decide

theorem test_a_region_past_the_data_space_is_refused :
    ({ Config.default with fileMap := [⟨0x1FF, 2, .ram 0⟩] } : Config).wf = false := by decide

theorem test_a_region_up_to_the_end_of_the_data_space_is_admitted :
    ({ Config.default with fileMap := [⟨0x1FF, 1, .ram 0⟩] } : Config).wf = true := by decide

/-! ## Decoding: one word for each constructor, from the patterns of 30_encoding.md R64 -/

theorem test_decode_byte_oriented :
    decode 0b00_0111_0_0100000#14 = .ok (.addwf 0x20#7 .w) ∧
    decode 0b00_0101_1_0100000#14 = .ok (.andwf 0x20#7 .f) ∧
    decode 0b00_0001_1_0100001#14 = .ok (.clrf 0x21#7) ∧
    decode 0b00_0001_0_1111111#14 = .ok .clrw ∧
    decode 0b00_1001_0_0100000#14 = .ok (.comf 0x20#7 .w) ∧
    decode 0b00_0011_1_0100000#14 = .ok (.decf 0x20#7 .f) ∧
    decode 0b00_1011_1_0100000#14 = .ok (.decfsz 0x20#7 .f) ∧
    decode 0b00_1010_0_0100000#14 = .ok (.incf 0x20#7 .w) ∧
    decode 0b00_1111_1_0000100#14 = .ok (.incfsz 0x04#7 .f) := by decide

theorem test_decode_byte_oriented_continued :
    decode 0b00_0100_0_0100000#14 = .ok (.iorwf 0x20#7 .w) ∧
    decode 0b00_1000_0_0000010#14 = .ok (.movf 0x02#7 .w) ∧
    decode 0b00_0000_1_0001010#14 = .ok (.movwf 0x0A#7) ∧
    decode 0b00_0000_0_1100000#14 = .ok .nop ∧
    decode 0b00_1101_1_0100000#14 = .ok (.rlf 0x20#7 .f) ∧
    decode 0b00_1100_0_0100000#14 = .ok (.rrf 0x20#7 .w) ∧
    decode 0b00_0010_1_0100000#14 = .ok (.subwf 0x20#7 .f) ∧
    decode 0b00_1110_0_0100000#14 = .ok (.swapf 0x20#7 .w) ∧
    decode 0b00_0110_1_0100000#14 = .ok (.xorwf 0x20#7 .f) := by decide

theorem test_decode_bit_oriented :
    decode 0b01_00_111_0000011#14 = .ok (.bcf 0x03#7 7#3) ∧
    decode 0b01_01_100_0000011#14 = .ok (.bsf 0x03#7 4#3) ∧
    decode 0b01_10_000_0100000#14 = .ok (.btfsc 0x20#7 0#3) ∧
    decode 0b01_11_010_0000011#14 = .ok (.btfss 0x03#7 2#3) := by decide

theorem test_decode_literal :
    decode 0b11_1111_11111111#14 = .ok (.addlw 0xFF#8) ∧
    decode 0b11_1001_10101011#14 = .ok (.andlw 0xAB#8) ∧
    decode 0b11_1000_00000011#14 = .ok (.iorlw 0x03#8) ∧
    decode 0b11_0000_00010000#14 = .ok (.movlw 0x10#8) ∧
    decode 0b11_0111_00101010#14 = .ok (.retlw 0x2A#8) ∧
    decode 0b11_1101_00010000#14 = .ok (.sublw 0x10#8) ∧
    decode 0b11_1010_10101000#14 = .ok (.xorlw 0xA8#8) := by decide

theorem test_decode_control :
    decode 0b10_0_00001010000#14 = .ok (.call 0x050#11) ∧
    decode 0b10_1_11100000000#14 = .ok (.goto 0x700#11) ∧
    decode 0b00_0000_0_1100100#14 = .ok .clrwdt ∧
    decode 0b00_0000_0_1100011#14 = .ok .sleep ∧
    decode 0b00_0000_0_0001001#14 = .ok .retfie ∧
    decode 0b00_0000_0_0001000#14 = .ok .ret := by decide

/-- 95_test_vectors.md section 2.6. -/
theorem test_decode_rejects_by_name :
    decode 0x0001#14 = .error (.unassignedControl 0x01#7) ∧
    decode 0x007F#14 = .error (.unassignedControl 0x7F#7) ∧
    decode 0x3B00#14 = .error (.unassignedLiteral 0x00#8) ∧
    decode 0x3BFF#14 = .error (.unassignedLiteral 0xFF#8) := by decide

theorem test_decode_table_word :
    decodeTableWord 14 0x0720 = some (.addwf 0x20#7 .w) ∧
    decodeTableWord 16 0x0720 = some (.addwf 0x20#7 .w) ∧
    decodeTableWord 16 0x4720 = none ∧ decodeTableWord 16 0x3B00 = none := by decide

/-! ## One step (95_test_vectors.md section 2) -/

/-- At 0100h with the given W, cell 20h and STATUS. -/
def start (w f st : Byte) : State :=
  { State.reset with pc := 0x0100#13, w := w, status := st, data := [(0x20, f)] }

/-- The state after one step that runs `word`. -/
def after (word : CodeWord) (s : State) : Option State :=
  match step (s.withFetchWord 14 word.toNat) with
  | .next t => some t
  | .fault _ => none
  | .refused _ => none

/-- What the vectors of section 2 show: W, cell 20h, STATUS and PC. -/
def shown (t : State) : Byte × Byte × Byte × Pc := (t.w, t.ramByte 0x20, t.status, t.pc)

/-- The name of the fault, if the step stops. -/
def stops (word : CodeWord) (s : State) : Option Fault :=
  match step (s.withFetchWord 14 word.toNat) with
  | .next _ => none
  | .fault e => some e
  | .refused _ => none

/-! ### Byte-oriented -/

theorem test_addwf_all_flags : (after 0x07A0#14 (start 0x01#8 0xFF#8 0x18#8)).map shown =
    some (0x01#8, 0x00#8, 0x1F#8, 0x0101#13) := by decide

theorem test_addwf_digit_carry_alone : (after 0x07A0#14 (start 0x0F#8 0x01#8 0x18#8)).map shown =
    some (0x0F#8, 0x10#8, 0x1A#8, 0x0101#13) := by decide

theorem test_andwf_keeps_the_register : (after 0x0520#14 (start 0xF0#8 0x0F#8 0x18#8)).map shown =
    some (0x00#8, 0x0F#8, 0x1C#8, 0x0101#13) := by decide

theorem test_clrf : (after 0x01A0#14 (start 0x11#8 0x5A#8 0x18#8)).map shown =
    some (0x11#8, 0x00#8, 0x1C#8, 0x0101#13) := by decide

theorem test_clrw_with_dont_care_bits : (after 0x017F#14 (start 0xFF#8 0x5A#8 0x18#8)).map shown =
    some (0x00#8, 0x5A#8, 0x1C#8, 0x0101#13) := by decide

theorem test_comf : (after 0x0920#14 (start 0x00#8 0x13#8 0x18#8)).map shown =
    some (0xEC#8, 0x13#8, 0x18#8, 0x0101#13) := by decide

theorem test_decf_wraps_and_keeps_carry : (after 0x03A0#14 (start 0x00#8 0x00#8 0x19#8)).map shown =
    some (0x00#8, 0xFF#8, 0x19#8, 0x0101#13) := by decide

theorem test_decfsz_skips_without_zero_flag : (after 0x0BA0#14 (start 0x00#8 0x01#8 0x18#8)).map shown =
    some (0x00#8, 0x00#8, 0x18#8, 0x0102#13) := by decide

theorem test_incf_wraps_without_carry : (after 0x0AA0#14 (start 0x00#8 0xFF#8 0x18#8)).map shown =
    some (0x00#8, 0x00#8, 0x1C#8, 0x0101#13) := by decide

theorem test_incfsz_goes_on : (after 0x0FA0#14 (start 0x00#8 0xFE#8 0x18#8)).map shown =
    some (0x00#8, 0xFF#8, 0x18#8, 0x0101#13) := by decide

theorem test_iorwf : (after 0x0420#14 (start 0x91#8 0x13#8 0x18#8)).map shown =
    some (0x93#8, 0x13#8, 0x18#8, 0x0101#13) := by decide

theorem test_movf_onto_itself_sets_zero : (after 0x08A0#14 (start 0x00#8 0x80#8 0x1C#8)).map shown =
    some (0x00#8, 0x80#8, 0x18#8, 0x0101#13) := by decide

theorem test_movwf_sets_no_flag : (after 0x00A0#14 (start 0x4F#8 0x00#8 0x18#8)).map shown =
    some (0x4F#8, 0x4F#8, 0x18#8, 0x0101#13) := by decide

theorem test_nop_with_dont_care_bits : (after 0x0060#14 (start 0x12#8 0x34#8 0x1F#8)).map shown =
    some (0x12#8, 0x34#8, 0x1F#8, 0x0101#13) := by decide

theorem test_rlf_shifts_carry_in : (after 0x0DA0#14 (start 0x00#8 0x00#8 0x19#8)).map shown =
    some (0x00#8, 0x01#8, 0x18#8, 0x0101#13) := by decide

theorem test_rlf_shifts_carry_out : (after 0x0DA0#14 (start 0x00#8 0x80#8 0x18#8)).map shown =
    some (0x00#8, 0x00#8, 0x19#8, 0x0101#13) := by decide

theorem test_rrf_shifts_carry_in : (after 0x0CA0#14 (start 0x00#8 0x00#8 0x19#8)).map shown =
    some (0x00#8, 0x80#8, 0x18#8, 0x0101#13) := by decide

theorem test_rrf_to_w : (after 0x0C20#14 (start 0x00#8 0xE6#8 0x18#8)).map shown =
    some (0x73#8, 0xE6#8, 0x18#8, 0x0101#13) := by decide

theorem test_subwf_of_zero_sets_carry : (after 0x02A0#14 (start 0x00#8 0x55#8 0x18#8)).map shown =
    some (0x00#8, 0x55#8, 0x1B#8, 0x0101#13) := by decide

theorem test_subwf_borrow_of_the_high_nibble : (after 0x0220#14 (start 0x80#8 0x7F#8 0x18#8)).map shown =
    some (0xFF#8, 0x7F#8, 0x1A#8, 0x0101#13) := by decide

theorem test_swapf : (after 0x0E20#14 (start 0x00#8 0xA5#8 0x18#8)).map shown =
    some (0x5A#8, 0xA5#8, 0x18#8, 0x0101#13) := by decide

theorem test_xorwf : (after 0x06A0#14 (start 0xB5#8 0xAF#8 0x18#8)).map shown =
    some (0xB5#8, 0x1A#8, 0x18#8, 0x0101#13) := by decide

/-! ### Bit-oriented -/

theorem test_bcf : (after 0x1020#14 (start 0x00#8 0xFF#8 0x18#8)).map shown =
    some (0x00#8, 0xFE#8, 0x18#8, 0x0101#13) := by decide

theorem test_bsf_on_time_out_writes_nothing : (after 0x1603#14 (start 0x00#8 0x00#8 0x00#8)).map shown =
    some (0x00#8, 0x00#8, 0x00#8, 0x0101#13) := by decide

theorem test_btfsc_skips_on_zero : (after 0x1820#14 (start 0x00#8 0xFE#8 0x18#8)).map shown =
    some (0x00#8, 0xFE#8, 0x18#8, 0x0102#13) := by decide

theorem test_btfss_skips_on_one : (after 0x1FA0#14 (start 0x00#8 0x80#8 0x18#8)).map shown =
    some (0x00#8, 0x80#8, 0x18#8, 0x0102#13) := by decide

theorem test_btfss_goes_on : (after 0x1FA0#14 (start 0x00#8 0x7F#8 0x18#8)).map shown =
    some (0x00#8, 0x7F#8, 0x18#8, 0x0101#13) := by decide

/-! ### Literal -/

theorem test_addlw_with_dont_care_bit : (after 0x3FFF#14 (start 0x10#8 0x00#8 0x18#8)).map shown =
    some (0x0F#8, 0x00#8, 0x19#8, 0x0101#13) := by decide

theorem test_addlw_digit_carry : (after 0x3E08#14 (start 0x08#8 0x00#8 0x18#8)).map shown =
    some (0x10#8, 0x00#8, 0x1A#8, 0x0101#13) := by decide

theorem test_andlw : (after 0x395F#14 (start 0xA3#8 0x00#8 0x18#8)).map shown =
    some (0x03#8, 0x00#8, 0x18#8, 0x0101#13) := by decide

theorem test_iorlw : (after 0x3835#14 (start 0x9A#8 0x00#8 0x18#8)).map shown =
    some (0xBF#8, 0x00#8, 0x18#8, 0x0101#13) := by decide

theorem test_movlw_of_zero_sets_no_flag : (after 0x3300#14 (start 0xAA#8 0x00#8 0x18#8)).map shown =
    some (0x00#8, 0x00#8, 0x18#8, 0x0101#13) := by decide

theorem test_sublw : (after 0x3C02#14 (start 0x01#8 0x00#8 0x18#8)).map shown =
    some (0x01#8, 0x00#8, 0x1B#8, 0x0101#13) := by decide

theorem test_sublw_borrow : (after 0x3C02#14 (start 0x03#8 0x00#8 0x18#8)).map shown =
    some (0xFF#8, 0x00#8, 0x18#8, 0x0101#13) := by decide

theorem test_xorlw : (after 0x3AAF#14 (start 0xB5#8 0x00#8 0x18#8)).map shown =
    some (0x1A#8, 0x00#8, 0x18#8, 0x0101#13) := by decide

/-! ### Control -/

theorem test_call_after_the_last_address :
    (after 0x2000#14 { State.reset with pc := 0x1FFF#13 }).map (fun t => (t.pc, t.stack)) =
      some (0x0000#13, [0x0000#13]) := by decide

theorem test_call_takes_the_page_from_pclath :
    (after 0x2050#14 { State.reset with pc := 0x0005#13, pclath := 0x18#5 }).map (fun t => (t.pc, t.stack)) =
      some (0x1850#13, [0x0006#13]) := by decide

theorem test_goto_leaves_its_own_page :
    (after 0x2F00#14 { State.reset with pc := 0x1234#13 }).map State.pc = some 0x0700#13 := by decide

theorem test_goto_ignores_pclath_low_bits :
    (after 0x2FFF#14 { State.reset with pclath := 0x1F#5 }).map State.pc = some 0x1FFF#13 := by decide

theorem test_return_pops :
    (after 0x0008#14 { State.reset with pc := 0x0052#13, stack := [0x0006#13, 0x0099#13] }).map
      (fun t => (t.pc, t.stack)) = some (0x0006#13, [0x0099#13]) := by decide

theorem test_return_of_an_empty_stack_stops : stops 0x0008#14 State.reset = some .stackUnderflow := by decide

theorem test_retlw_loads_w :
    (after 0x372A#14 { State.reset with pc := 0x0113#13, stack := [0x0101#13] }).map
      (fun t => (t.pc, t.stack, t.w)) = some (0x0101#13, [], 0x2A#8) := by decide

theorem test_retfie_sets_gie :
    (after 0x0009#14 { State.reset with pc := 0x0005#13, stack := [0x000A#13] }).map
      (fun t => (t.pc, t.stack, t.intcon)) = some (0x000A#13, [], 0x80#8) := by decide

theorem test_clrwdt :
    (after 0x0064#14 { State.reset with status := 0x07#8, wdt := 9 }).map (fun t => (t.status, t.wdt)) =
      some (0x1F#8, 0) := by decide

theorem test_sleep :
    (after 0x0063#14 { State.reset with pc := 0x0040#13, status := 0x1C#8 }).map
      (fun t => (t.status, t.asleep, t.pc)) = some (0x14#8, true, 0x0041#13) := by decide

/-! ### PCL, STATUS, banking, indirect access (section 2.5) -/

theorem test_movwf_pcl_takes_pclath :
    (after 0x0082#14 { State.reset with pc := 0x0103#13, w := 0x03#8, pclath := 0x10#5 }).map State.pc =
      some 0x1003#13 := by decide

theorem test_addwf_pcl_drops_the_carry :
    (after 0x0782#14 { State.reset with pc := 0x02FE#13, w := 0xFF#8, pclath := 0x02#5 }).map
      (fun t => (t.pc, t.status)) = some (0x02FE#13, 0x1B#8) := by decide

theorem test_computed_flag_wins_over_data :
    (after 0x0183#14 { State.reset with status := 0xFB#8 }).map State.status = some 0x1C#8 := by decide

theorem test_indirect_read_of_indf_itself :
    (after 0x0800#14 { State.reset with fsr := 0x80#8, w := 0x55#8 }).map (fun t => (t.w, t.zero)) =
      some (0x00#8, true) := by decide

theorem test_indirect_read_of_status :
    (after 0x0800#14 { State.reset with fsr := 0x83#8, status := 0x1D#8 }).map (fun t => (t.w, t.status)) =
      some (0x1D#8, 0x19#8) := by decide

theorem test_unimplemented_address_stops :
    stops 0x00A0#14 { State.reset with status := 0x38#8 } = some (.unmappedFile 0x0A0#9) := by decide

theorem test_unassigned_word_stops :
    stops 0x3B12#14 State.reset = some (.reservedInstruction 0x0000#13 0x3B12#14) := by decide

/-! ### Interrupt, wake-up, reset -/

/-- 95_test_vectors.md program P3, step 7. -/
theorem test_interrupt_entry :
    (after 0x280A#14 { State.reset with pc := 0x000A#13, intcon := 0x80#8, irq := true }).map
      (fun t => (t.pc, t.stack, t.intcon)) = some (0x0004#13, [0x000A#13], 0x00#8) := by decide

/-- 60_exceptions.md R170: a request wakes the CPU with GIE = 0 and nothing is entered. -/
theorem test_wake_up_without_gie :
    (match step { State.reset with asleep := true, irq := true, pc := 0x0041#13 } with
      | .next t => some (t.asleep, t.pc, t.stack)
      | .fault _ => none
      | .refused _ => none) = some (false, 0x0041#13, []) := by decide

/-- 70_reset_and_hazards.md R180: external reset keeps TO, PD and the flags. -/
theorem test_external_reset :
    (match step { State.reset with
        env := [.environment .externalReset], pc := 0x0123#13, status := 0xEF#8, stack := [0x0001#13] } with
      | .next t => some (t.pc, t.status, t.stack)
      | .fault _ => none
      | .refused _ => none) = some (0x0000#13, 0x0F#8, []) := by decide

/-! ## Witnesses: for each obligation with hypotheses, states that meet them, clause by clause -/

/-- A state about to run `word` at address 0, on the CPU's turn. -/
def ready (word : CodeWord) : State := { State.reset with code := [(0, word)] }

theorem ready_turn (word : CodeWord) : CpuTurn (ready word) (ready word) := .inl ⟨rfl, rfl⟩

/-- The CPU's turn written out on the schedule. -/
theorem scheduled_turn (word : CodeWord) (rest : List Turn) :
    CpuTurn { ready word with env := .cpu :: rest } { ready word with env := rest } :=
  .inr ⟨rest, rfl, rfl⟩

/-- The default configuration under `STACK_POLICY = wrap`. -/
def wrapping : State := { State.reset with cfg := { Config.default with stackPolicy := .wrap } }

/-- The default configuration with the watchdog enabled. -/
def watched : State := { State.reset with cfg := { Config.default with wdtEnabled := true }, wdt := 1 }

/-- The default configuration with a device register at address 0Ch. -/
def withDevice : State :=
  { State.reset with cfg := { Config.default with fileMap := [⟨0x0C, 1, .device 5⟩] } }

theorem mapped_of_ram {f : FileField} {s : State} {c : Nat} (h : fileTarget f s = .ram c) : Mapped f s := by
  intro a
  rw [h]
  simp

theorem mapped_of_pcl {f : FileField} {s : State} (h : fileTarget f s = .pcl) : Mapped f s := by
  intro a
  rw [h]
  simp

/-- The hypotheses of the rules of the file register instructions: a register that is there, PCL among
them, and an address that is not. -/
def FileRuleHypotheses : Prop :=
  Mapped 0x0C#7 State.reset ∧ Mapped 0x7F#7 State.reset ∧
  (Mapped 0x02#7 State.reset ∧ fileTarget 0x02#7 State.reset = .pcl) ∧
  fileTarget 0x05#7 State.reset = .unimplemented 0x005#9

theorem fileRuleHypotheses : FileRuleHypotheses :=
  ⟨mapped_of_ram (c := 0x0C) (by decide), mapped_of_ram (c := 0x7F) (by decide),
    ⟨mapped_of_pcl (by decide), by decide⟩, by decide⟩

theorem witness_EncodingADecodedWordClearsItsDontCares :
    decode 0x3FFF#14 = .ok (.addlw 0xFF#8) ∧ decode 0x0000#14 = .ok .nop := by decide

theorem witness_DecoderAgreesWithTheOpcodeTable :
    decode 0x3FFF#14 = .ok (.addlw 0xFF#8) ∧ (Instr.addlw 0xFF#8).row.holds 0x3FFF#14 = true := by decide

theorem witness_UnassignedWordsStopTheRun :
    CpuTurn (ready 0x3B00#14) (ready 0x3B00#14) ∧ (ready 0x3B00#14).asleep = false ∧
    Unassigned ((ready 0x3B00#14).progRead (ready 0x3B00#14).pc) ∧
    Unassigned 0x3BFF#14 ∧ Unassigned 0x0001#14 ∧ Unassigned 0x007F#14 := by
  refine ⟨ready_turn _, rfl, ?_, ?_, ?_, ?_⟩ <;> unfold Unassigned <;> decide

theorem witness_StepKeepsWellFormedness : State.reset.Wf ∧ ∃ t, step State.reset = .next t :=
  ⟨⟨by decide, by decide, by decide, by decide⟩, _, rfl⟩

theorem witness_CodeAndConfigurationNeverChange : ∃ t, step State.reset = .next t := ⟨_, rfl⟩

theorem witness_OnlyFetchReadsTheCode :
    (({ State.reset with code := [(1, 0x0000#14)] } : State).progRead State.reset.pc =
      State.reset.progRead State.reset.pc ∧ ∃ t, step State.reset = .next t) ∧
    ({ ready 0x3B00#14 with code := [(0, 0x3B00#14), (1, 0x0000#14)] } : State).progRead (ready 0x3B00#14).pc =
      (ready 0x3B00#14).progRead (ready 0x3B00#14).pc ∧
    step (ready 0x3B00#14) = .fault (.reservedInstruction 0x0000#13 0x3B00#14) :=
  ⟨⟨by decide, _, rfl⟩, by decide, rfl⟩

theorem witness_DirectAddressTakesTheBankFromStatus : fileTarget 0x03#7 State.reset = .status := by decide

theorem witness_IndirectAddressTakesIrpAndFsr :
    bankOffset 0x080#9 = State.reset.cfg.addrIndf ∧
    bankOffset (indEA { State.reset with fsr := 0x20#8 }) ≠ State.reset.cfg.addrIndf ∧
    bankOffset (indEA { State.reset with fsr := 0x80#8 }) = State.reset.cfg.addrIndf := by decide

/-- The clauses of the two dispatch statements, each at an address of bank 0 or bank 3. -/
def DispatchHypotheses : Prop :=
  (State.reset.cfg.wf = true ∧ withDevice.cfg.wf = true) ∧
  bankOffset 0x182#9 = State.reset.cfg.addrPcl ∧ bankOffset 0x183#9 = 0x03#7 ∧
  bankOffset 0x004#9 = State.reset.cfg.addrFsr ∧ bankOffset 0x18A#9 = State.reset.cfg.addrPclath ∧
  bankOffset 0x00B#9 = State.reset.cfg.addrIntcon ∧
  (bankOffset 0x07F#9 ∉ State.reset.cfg.coreOffsets ∧
    fileMapEntry State.reset.cfg.fileMap 0x07F = .ram 0x7F) ∧
  (bankOffset 0x00C#9 ∉ withDevice.cfg.coreOffsets ∧
    fileMapEntry withDevice.cfg.fileMap 0x00C = .device 5) ∧
  bankOffset 0x18C#9 ∉ State.reset.cfg.coreOffsets ∧
    fileMapEntry State.reset.cfg.fileMap 0x18C = .unimplemented

theorem witness_DataReadFindsTheCoreRegistersInEveryBank : DispatchHypotheses := by
  unfold DispatchHypotheses
  decide

theorem witness_DataWriteReachesTheCoreRegistersInEveryBank : DispatchHypotheses := by
  unfold DispatchHypotheses
  decide

theorem witness_TimeOutAndPowerDownWrittenOnlyByEvents :
    (∃ t, exec .nop State.reset = .next t) ∧ (∃ t, exec .clrwdt State.reset = .next t) ∧
    (∃ t, exec .sleep State.reset = .next t) ∧ (watched.cfg.wdtEnabled = true ∧ 1 ≤ watched.wdt) ∧
    EnvEvent.externalReset ≠ .watchdogTimeout ∧ EnvEvent.externalReset ≠ .powerUp ∧
    ∃ t, interruptCheck State.reset = .next t :=
  ⟨⟨_, rfl⟩, ⟨_, rfl⟩, ⟨_, rfl⟩, by decide, by decide, by decide, _, rfl⟩

theorem witness_FlagsChangeOnlyWhereTheTableListsThem :
    (∃ t, exec (.movwf 0x20#7) State.reset = .next t) ∧
    storesTo (.movwf 0x20#7) State.reset ≠ some .status ∧ writesZero (.movwf 0x20#7) = false ∧
    writesCarry (.movwf 0x20#7) = false ∧ writesDigitCarry (.movwf 0x20#7) = false :=
  ⟨⟨_, rfl⟩, by decide, rfl, rfl, rfl⟩

theorem witness_RegistersAndRamChangeOnlyAsDestinations :
    (∃ t, exec (.movwf 0x20#7) State.reset = .next t) ∧ writesW (.movwf 0x20#7) = false ∧
    storesTo (.movwf 0x20#7) State.reset ≠ some .pclath ∧
    storesTo (.movwf 0x20#7) State.reset ≠ some .fsr ∧
    storesTo (.movwf 0x20#7) State.reset ≠ some .intcon ∧
    storesTo (.movwf 0x20#7) State.reset ≠ some (.ram 0x21) :=
  ⟨⟨_, rfl⟩, rfl, by decide, by decide, by decide, by decide⟩

theorem witness_OnlyCallsAndReturnsTouchTheStack :
    (∃ t, exec .nop State.reset = .next t) ∧ ¬ usesStack .nop ∧ ¬ usesStack (.movwf 0x05#7) ∧
    exec (.movwf 0x05#7) State.reset = .fault (.unmappedFile 0x005#9) := by
  refine ⟨⟨_, rfl⟩, ?_, ?_, rfl⟩ <;> simp [usesStack]

theorem witness_ReturnStackIsLastInFirstOut :
    (∃ t, push 0x0123#13 State.reset = .next t) ∧ ∃ t, push 0x0123#13 wrapping = .next t :=
  ⟨⟨_, rfl⟩, _, rfl⟩

/-- Stacks at both ends of the eight levels, under both policies. -/
def StackHypotheses : Prop :=
  (State.reset.cfg.stackPolicy = .fault ∧ State.reset.stack.length < 8) ∧
  ({ State.reset with stack := List.replicate 7 0x0001#13 } : State).stack.length < 8 ∧
  8 ≤ ({ State.reset with stack := List.replicate 8 0x0001#13 } : State).stack.length ∧
  wrapping.cfg.stackPolicy = .wrap

theorem stackHypotheses : StackHypotheses := by
  unfold StackHypotheses
  decide

theorem witness_StackOfEightLevelsStopsUnderTheFaultPolicy :
    StackHypotheses ∧ (List.replicate 7 0x0001#13 : List Pc).length = 7 ∧
    ((∃ t, exec .nop State.reset = .next t) ∧ ¬ usesStack .nop) ∧
    (∃ t, exec (.call 0x050#11) State.reset = .next t ∧ State.reset.stack.length < t.stack.length) ∧
    (∃ t, exec (.call 0x050#11) wrapping = .next t ∧ t.ring.ptr = wrapping.ring.ptr + 1#3) ∧
    (∃ t, exec .ret { State.reset with stack := [0x0006#13] } = .next t ∧ t.stack.length < 1) ∧
    (∃ t, exec .ret wrapping = .next t ∧ t.ring.ptr = wrapping.ring.ptr - 1#3) ∧
    (∃ t, interruptCheck State.reset = .next t) ∧
    ¬ (State.reset.irq = true ∧ State.reset.gie = true ∧ State.reset.asleep = false) :=
  ⟨stackHypotheses, by decide, ⟨⟨_, rfl⟩, witness_OnlyCallsAndReturnsTouchTheStack.2.1⟩,
    ⟨_, rfl, by decide⟩, ⟨_, rfl, by decide⟩, ⟨_, rfl, by decide⟩, ⟨_, rfl, by decide⟩, ⟨_, rfl⟩, by decide⟩

/-- Under wrap, with one address pushed. -/
def wrappingOnePushed : State := { wrapping with ring := ringPush wrapping.ring 0x0006#13 }

theorem witness_PopGivesTheNewestLevel :
    ({ State.reset with stack := [0x0006#13] } : State).stack = [0x0006#13] ∧ State.reset.stack = [] ∧
    State.reset.cfg.stackPolicy = .fault ∧ wrapping.cfg.stackPolicy = .wrap ∧
    slot wrapping.ring (wrapping.ring.ptr - 1#3) = none ∧
    (wrappingOnePushed.cfg.stackPolicy = .wrap ∧
      slot wrappingOnePushed.ring (wrappingOnePushed.ring.ptr - 1#3) = some 0x0006#13) := by decide

theorem witness_AddwfAddsWAndFileRegister : FileRuleHypotheses := fileRuleHypotheses

theorem witness_SubwfSubtractsWFromFileRegister : FileRuleHypotheses := fileRuleHypotheses

theorem witness_AndIorXorOfWAndFileRegister : FileRuleHypotheses := fileRuleHypotheses

theorem witness_IncrementDecrementComplementMove : FileRuleHypotheses := fileRuleHypotheses

theorem witness_DecfszAndIncfszSkipOnAZeroResult : FileRuleHypotheses := fileRuleHypotheses

theorem witness_RotatesPassThroughCarry : FileRuleHypotheses := fileRuleHypotheses

theorem witness_SwapfExchangesNibbles : FileRuleHypotheses := fileRuleHypotheses

theorem witness_ClrfAndMovwfStoreWithoutReading : FileRuleHypotheses := fileRuleHypotheses

theorem witness_BcfAndBsfRewriteTheWholeByte : FileRuleHypotheses := fileRuleHypotheses

theorem witness_BitTestsSkipAndWriteNothing : FileRuleHypotheses := fileRuleHypotheses

theorem witness_GotoTakesItsPageFromPclath : ∃ t, exec (.call 0x050#11) State.reset = .next t := ⟨_, rfl⟩

/-- A CALL at the last code address, with the given return stack and policy. -/
def callAtTheTop (stack : List Pc) (policy : StackPolicy) : State :=
  { State.reset with
    code := [(0x1FFF, 0x2050#14)], pc := 0x1FFF#13, stack := stack,
    cfg := { Config.default with stackPolicy := policy } }

theorem witness_CallPushesTheAddressAfterIt :
    StackHypotheses ∧
    (∀ stack policy,
      CpuTurn (callAtTheTop stack policy) (callAtTheTop stack policy) ∧
      (callAtTheTop stack policy).asleep = false ∧ (callAtTheTop stack policy).pc = 0x1FFF#13 ∧
      decode ((callAtTheTop stack policy).progRead 0x1FFF#13) = .ok (.call 0x050#11) ∧
      ¬ ((callAtTheTop stack policy).irq = true ∧ (callAtTheTop stack policy).gie = true)) ∧
    (callAtTheTop [] .fault).stack.length < 8 ∧
    8 ≤ (callAtTheTop (List.replicate 8 0x0001#13) .fault).stack.length ∧
    (callAtTheTop [] .wrap).cfg.stackPolicy = .wrap :=
  ⟨stackHypotheses, fun _ _ => ⟨.inl ⟨rfl, rfl⟩, rfl, rfl, show decode 0x2050#14 = .ok (.call 0x050#11) by decide,
    fun h => Bool.noConfusion h.1⟩, by decide, by decide, rfl⟩

theorem witness_ReturnsPopThePc :
    ({ State.reset with stack := [0x0006#13] } : State).stack = [0x0006#13] ∧ State.reset.stack = [] ∧
    State.reset.cfg.stackPolicy = .fault ∧ wrapping.cfg.stackPolicy = .wrap ∧
    (wrappingOnePushed.cfg.stackPolicy = .wrap ∧
      slot wrappingOnePushed.ring (wrappingOnePushed.ring.ptr - 1#3) = some 0x0006#13) ∧
    slot wrapping.ring (wrapping.ring.ptr - 1#3) = none := by decide

theorem witness_StepRunsTheDecodedInstruction :
    (CpuTurn (ready 0x0000#14) (ready 0x0000#14) ∧ (ready 0x0000#14).asleep = false ∧
      decode ((ready 0x0000#14).progRead (ready 0x0000#14).pc) = .ok .nop) ∧
    CpuTurn { ready 0x0000#14 with env := [.cpu] } (ready 0x0000#14) ∧
    ({ ready 0x0000#14 with asleep := true } : State).asleep = true :=
  ⟨⟨ready_turn _, rfl, by decide⟩, scheduled_turn _ [], rfl⟩

/-- A request taken at the end of a NOP, with the given return stack and policy. -/
def requested (stack : List Pc) (policy : StackPolicy) : State :=
  { ready 0x0000#14 with
    irq := true, intcon := 0x80#8, stack := stack, cfg := { Config.default with stackPolicy := policy } }

theorem requested_completes (stack : List Pc) (policy : StackPolicy) :
    Completes (requested stack policy) .nop (fetched (requested stack policy)) :=
  ⟨_, .inl ⟨rfl, rfl⟩, rfl, show decode 0x0000#14 = .ok .nop by decide, rfl⟩

theorem requested_enabled (stack : List Pc) (policy : StackPolicy) :
    (fetched (requested stack policy)).gie = true := by
  show (0x80#8 : Byte).getLsbD 7 = true
  decide

theorem witness_InterruptEntrySavesPcAndMasks :
    (∀ stack policy, Completes (requested stack policy) .nop (fetched (requested stack policy)) ∧
      (fetched (requested stack policy)).irq = true ∧ (fetched (requested stack policy)).gie = true ∧
      (fetched (requested stack policy)).asleep = false) ∧
    (List.replicate 7 0x0001#13 : List Pc).length < 8 ∧ 8 ≤ (List.replicate 8 0x0001#13 : List Pc).length ∧
    Completes (ready 0x0000#14) .nop (fetched (ready 0x0000#14)) ∧ (fetched (ready 0x0000#14)).irq ≠ true :=
  ⟨fun stack policy => ⟨requested_completes stack policy, rfl, requested_enabled stack policy, rfl⟩, by decide, by decide,
    ⟨_, ready_turn _, rfl, by decide, rfl⟩, by decide⟩

/-- A RETFIE with the request still there, under wrap, with the given circular stack. -/
def retfieUnderWrap (ring : Ring) : State :=
  { ready 0x0009#14 with irq := true, ring := ring, cfg := { Config.default with stackPolicy := .wrap } }

theorem witness_RetfieWithAPendingRequestReentersAtOnce :
    (({ ready 0x0009#14 with irq := true, stack := [0x000A#13] } : State).Wf ∧
      CpuTurn { ready 0x0009#14 with irq := true, stack := [0x000A#13] }
        { ready 0x0009#14 with irq := true, stack := [0x000A#13] } ∧
      (ready 0x0009#14).asleep = false ∧ (ready 0x0009#14).cfg.stackPolicy = .fault ∧
      ([0x000A#13] : List Pc) ≠ [] ∧ decode ((ready 0x0009#14).progRead 0x0000#13) = .ok .retfie) ∧
    (∀ ring, CpuTurn (retfieUnderWrap ring) (retfieUnderWrap ring) ∧ (retfieUnderWrap ring).asleep = false ∧
      (retfieUnderWrap ring).irq = true ∧ (retfieUnderWrap ring).cfg.stackPolicy = .wrap ∧
      decode ((retfieUnderWrap ring).progRead (retfieUnderWrap ring).pc) = .ok .retfie) ∧
    slot wrappingOnePushed.ring (wrappingOnePushed.ring.ptr - 1#3) = some 0x0006#13 ∧
    slot wrapping.ring (wrapping.ring.ptr - 1#3) = none :=
  ⟨⟨⟨by decide, by decide, by decide, by decide⟩, .inl ⟨rfl, rfl⟩, rfl, rfl, by decide, by decide⟩,
    fun _ => ⟨.inl ⟨rfl, rfl⟩, rfl, rfl, rfl, show decode 0x0009#14 = .ok .retfie by decide⟩, by decide, by decide⟩

/-- Asleep with the watchdog enabled, its count cleared and the line at 0, before the given turns. -/
def sleeping (turns : List Turn) : State := { watched with asleep := true, wdt := 0, env := turns }

theorem witness_SleepingCpuWakesByRequestOrTimeOut :
    (CpuTurn { State.reset with asleep := true, irq := true } { State.reset with asleep := true, irq := true }) ∧
    (CpuTurn { State.reset with asleep := true } { State.reset with asleep := true } ∧
      State.reset.irq = false) ∧
    (({ watched with asleep := true, env := [.environment .watchdogTimeout] } : State).env =
      [.environment .watchdogTimeout] ∧ watched.cfg.wdtEnabled = true ∧ 1 ≤ watched.wdt) ∧
    ((sleeping [.environment .watchdogTimeout, .environment (.irqLine false), .cpu, .environment .externalReset,
        .environment .watchdogTimeout]).hangs = true ∧
      (sleeping [.cpu, .environment .watchdogTimeout]).hangs = false) ∧
    ({ State.reset with asleep := true, env := [.cpu] } : State).hangs = true ∧ quietSchedule [.cpu] = true :=
  ⟨.inl ⟨rfl, rfl⟩, ⟨.inl ⟨rfl, rfl⟩, rfl⟩, ⟨rfl, rfl, by decide⟩, by decide, by decide, by decide⟩

theorem witness_WatchdogTimeOutOnlyWhenEnabledAndDue :
    ({ watched with env := [.environment .watchdogTimeout] } : State).env =
      [.environment .watchdogTimeout] ∧
    (State.reset.cfg.wdtEnabled = false ∧ ({ watched with wdt := 0 } : State).wdt = 0) ∧
    (watched.cfg.wdtEnabled = true ∧ 1 ≤ watched.wdt ∧ watched.asleep = false) ∧
    ({ watched with asleep := true } : State).asleep = true ∧ (∃ t, exec .nop State.reset = .next t) ∧
    (CpuTurn { watched with asleep := true } { watched with asleep := true } ∧
      ∃ t, step { watched with asleep := true } = .next t) ∧
    CpuTurn (ready 0x0000#14) (ready 0x0000#14) ∧ (ready 0x0000#14).asleep = false ∧
    decode ((ready 0x0000#14).progRead (ready 0x0000#14).pc) = .ok .nop ∧ ∃ t, step (ready 0x0000#14) = .next t :=
  ⟨rfl, by decide, by decide, rfl, ⟨_, rfl⟩, ⟨.inl ⟨rfl, rfl⟩, _, rfl⟩, ready_turn _, rfl, by decide, _, rfl⟩

theorem witness_ResetKindsOfTheSpec :
    ({ State.reset with env := [.environment .externalReset] } : State).env =
      [.environment .externalReset] ∧
    (({ watched with env := [.environment .watchdogTimeout] } : State).env =
      [.environment .watchdogTimeout] ∧ watched.cfg.wdtEnabled = true ∧ 1 ≤ watched.wdt ∧
      watched.asleep = false) ∧
    ({ State.reset with env := [.environment .powerUp] } : State).env = [.environment .powerUp] := by decide

theorem witness_RequestLineIsTheOrOfEnabledFlags :
    ({ State.reset with env := [.environment (.irqLine true)] } : State).env =
      [.environment (.irqLine true)] ∧
    ({ State.reset with
      env := [.environment (.irqSources ⟨false, true, true, false, true, true, false, false⟩)] } : State).env =
      [.environment (.irqSources ⟨false, true, true, false, true, true, false, false⟩)] := by decide

/-- `GOTO $` at address 0 with GIE = 0, and with GIE = 1 but no request. -/
theorem witness_EndStateRepeatsForever :
    ((ready 0x2800#14).atEnd = true ∧ CpuTurn (ready 0x2800#14) (ready 0x2800#14)) ∧
    ({ ready 0x2800#14 with intcon := 0x80#8, env := [.cpu] } : State).atEnd = true ∧
    quietSchedule [.cpu] = true ∧
    ({ ready 0x2800#14 with
      intcon := 0x80#8
      env := [.environment (.irqLine false), .environment .watchdogTimeout, .environment .externalReset] } :
        State).atEnd = true ∧
    ({ ready 0x2800#14 with env := [.environment (.irqLine true)] } : State).atEnd = true ∧
    ({ ready 0x2800#14 with intcon := 0x80#8, env := [.environment (.irqLine true)] } : State).atEnd = false ∧
    ((ready 0x2800#14).cfg.wdtEnabled = false ∧ ({ watched with wdt := 0 } : State).wdt = 0) ∧
    (({ State.reset with env := [.environment .powerUp] } : State).irqStaysLow = true ∧
      ∃ t, runSteps 1 { State.reset with env := [.environment .powerUp] } = .next t) :=
  ⟨⟨by decide, ready_turn _⟩, by decide, by decide, by decide, by decide, by decide, by decide, by decide, _, rfl⟩

theorem witness_ComputedJumpAddsWithinPcl :
    CpuTurn (ready 0x0782#14) (ready 0x0782#14) ∧ (ready 0x0782#14).asleep = false ∧
    decode ((ready 0x0782#14).progRead (ready 0x0782#14).pc) = .ok (.addwf 0x02#7 .f) ∧
    fileTarget 0x02#7 (ready 0x0782#14) = .pcl :=
  ⟨ready_turn _, rfl, by decide, by decide⟩

theorem witness_ReadOfPclGivesTheNextAddress :
    (CpuTurn (ready 0x0802#14) (ready 0x0802#14) ∧ (ready 0x0802#14).asleep = false ∧
      decode ((ready 0x0802#14).progRead (ready 0x0802#14).pc) = .ok (.movf 0x02#7 .w) ∧
      fileTarget 0x02#7 (ready 0x0802#14) = .pcl) ∧
    ({ ready 0x0802#14 with pc := 0x0101#13 } : State).pc = 0x0101#13 ∧
    State.reset.cfg.wf = true ∧ bankOffset 0x102#9 = State.reset.cfg.addrPcl :=
  ⟨⟨ready_turn _, rfl, by decide, by decide⟩, rfl, by decide, by decide⟩

theorem witness_WriteOfPclTakesPclathAlong :
    (storesTo (.bsf 0x02#7 0#3) State.reset = some .pcl ∧
      ¬ (skipsOnZero (.bsf 0x02#7 0#3) ∧ fileResult (.bsf 0x02#7 0#3) State.reset = 0#8)) ∧
    (storesTo (.decfsz 0x02#7 .f) { State.reset with pc := 0x0101#13 } = some .pcl ∧
      skipsOnZero (.decfsz 0x02#7 .f) ∧
      fileResult (.decfsz 0x02#7 .f) { State.reset with pc := 0x0101#13 } = 0#8) ∧
    target 0x002#9 State.reset = .pcl ∧ fileTarget 0x02#7 State.reset = .pcl := by
  refine ⟨⟨by decide, ?_⟩, ⟨by decide, ⟨_, _, .inl rfl⟩, by decide⟩, by decide, by decide⟩
  simp [skipsOnZero]

end Sys2Proof.Tests
end

section
/-! TO and PD (10_state.md R21): who leaves them alone, and what the watchdog's time-out and power-up
make of them. -/

namespace Sys2Proof.Machine

/-- TO and PD are bits of STATUS, so whatever keeps STATUS keeps them. -/
theorem timeOut_powerDown_of_status_eq {s t : State} (h : t.status = s.status) :
    t.timeOut = s.timeOut ∧ t.powerDown = s.powerDown := by
  simp [State.timeOut, State.powerDown, h]

@[simp] theorem State.setAsleep_timeOut (s : State) (v : Bool) : (s.setAsleep v).timeOut = s.timeOut := rfl

@[simp] theorem State.setAsleep_powerDown (s : State) (v : Bool) :
    (s.setAsleep v).powerDown = s.powerDown := rfl

/-- Data written to STATUS does not reach TO and PD (R16); among the control instructions only CLRWDT
and SLEEP write STATUS. -/
theorem exec_keeps_timeOut_powerDown {i : Instr} {s t : State} (h : exec i s = .next t)
    (hClrwdt : i ≠ .clrwdt) (hSleep : i ≠ .sleep) :
    t.timeOut = s.timeOut ∧ t.powerDown = s.powerDown := by
  cases hc : isControl i with
  | true => exact timeOut_powerDown_of_status_eq ((exec_control h hc).status hClrwdt hSleep)
  | false =>
    obtain ⟨x, hx, -⟩ := exec_does h hc
    exact ⟨hx.timeOut, hx.powerDown⟩

theorem execClrwdt_timeOut_powerDown {s t : State} (h : execClrwdt s = .next t) :
    t.timeOut = true ∧ t.powerDown = true := by
  obtain rfl := by simpa [execClrwdt] using h.symm
  simp

theorem execSleep_timeOut_powerDown {s t : State} (h : execSleep s = .next t) :
    t.timeOut = true ∧ t.powerDown = false := by
  obtain rfl := by simpa [execSleep] using h.symm
  simp

theorem takeInterrupt_keeps_status {s t : State} (h : takeInterrupt s = .next t) :
    t.status = s.status := by
  obtain ⟨u, hu, rfl⟩ := takeInterrupt_next h
  exact (push_frame hu).status

theorem interruptCheck_keeps_status {s t : State} (h : interruptCheck s = .next t) :
    t.status = s.status := by
  rcases interruptCheck_next h with rfl | ⟨-, -, -, hEntry⟩
  · rfl
  · exact takeInterrupt_keeps_status hEntry

/-- The mask of a reset clears the bank bits of STATUS alone. -/
theorem anyReset_keeps_timeOut_powerDown (s : State) :
    (anyReset s).timeOut = s.timeOut ∧ (anyReset s).powerDown = s.powerDown := by
  simp [State.timeOut, State.powerDown]

theorem watchdogReset_timeOut (s : State) : (watchdogReset s).timeOut = false := by
  rw [State.timeOut, watchdogReset_status, getLsbD_setBit, getLsbD_setBit]
  simp

theorem powerUpReset_timeOut_powerDown (s : State) :
    (powerUpReset s).timeOut = true ∧ (powerUpReset s).powerDown = true := by
  simp [State.timeOut, State.powerDown]

/-- A time-out that occurs clears TO, of an awake CPU by the reset, of a sleeping one by the wake-up. -/
theorem watchdogTimeout_timeOut {s : State} (hEnabled : s.cfg.wdtEnabled = true) (hDue : 1 ≤ s.wdt) :
    (watchdogTimeout s).timeOut = false := by
  cases ha : s.asleep with
  | false => rw [watchdogTimeout_awake s hEnabled hDue ha, watchdogReset_timeOut]
  | true => rw [watchdogTimeout_asleep s hEnabled hDue ha, State.setTimeOut_timeOut]

theorem applyEvent_keeps_timeOut_powerDown {e : EnvEvent} (s : State)
    (hTimeout : e ≠ .watchdogTimeout) (hPower : e ≠ .powerUp) :
    (applyEvent e s).timeOut = s.timeOut ∧ (applyEvent e s).powerDown = s.powerDown := by
  cases e with
  | irqLine level => exact timeOut_powerDown_of_status_eq rfl
  | irqSources q => exact timeOut_powerDown_of_status_eq rfl
  | watchdogTimeout => exact absurd rfl hTimeout
  | externalReset => exact anyReset_keeps_timeOut_powerDown s
  | powerUp => exact absurd rfl hPower

end Sys2Proof.Machine

namespace Sys2Proof.Claims

open Sys2Proof.Machine

/-- Settles O15, from what each instruction, each event and the interrupt test do to TO and PD. -/
theorem timeOutAndPowerDownWrittenOnlyByEvents :
    Obligations.TimeOutAndPowerDownWrittenOnlyByEvents :=
  ⟨fun _ _ _ h hClrwdt hSleep => exec_keeps_timeOut_powerDown h hClrwdt hSleep,
    fun _ _ h => execClrwdt_timeOut_powerDown h,
    fun _ _ h => execSleep_timeOut_powerDown h,
    fun _ hEnabled hDue => watchdogTimeout_timeOut hEnabled hDue,
    fun s => powerUpReset_timeOut_powerDown s,
    fun _ s hTimeout hPower => applyEvent_keeps_timeOut_powerDown s hTimeout hPower,
    fun _ _ h => timeOut_powerDown_of_status_eq (interruptCheck_keeps_status h)⟩

end Sys2Proof.Claims
end

section
/-! Data addressing (20_memory.md R42, R43): a bit instruction that rewrites the bank bits of STATUS, and
the redirection of an access at ADDR_INDF. -/

namespace Sys2Proof.Machine

/-- STATUS as the operand of a store: the byte read is STATUS before the instruction, and the store
reaches STATUS whatever bank bits it carries (R42). -/
theorem fileOp_status {f : FileField} {s : State} (h : fileTarget f s = .status) (result : Byte → Byte) :
    fileOp f .f result (fun _ t => t) s = .next (s.writeStatus (result s.status)) := by
  have hm : Mapped f s := by simp [Mapped, h]
  rw [fileOp_eq hm, h]
  rfl

/-- One bit of STATUS rewritten by a store: TO and PD keep, being out of reach of the data (R16). -/
theorem getLsbD_writeStatus_setBit (s : State) (i : BitNum) (b : Bool) (j : Nat) :
    (s.writeStatus (setBit s.status i.toNat b)).status.getLsbD j =
      if j = i.toNat ∧ j ≠ 3 ∧ j ≠ 4 then b else s.status.getLsbD j := by
  have hi := i.isLt
  rw [getLsbD_writeStatus, getLsbD_setBit]
  by_cases hKept : j = 3 ∨ j = 4
  · rw [if_pos hKept, if_neg (by omega)]
  · rw [if_neg hKept]
    exact if_congr (by omega) rfl rfl

theorem execBsf_status {f : FileField} {s : State} (h : fileTarget f s = .status) (b : BitNum) :
    exec (.bsf f b) s = .next (s.writeStatus (setBit s.status b.toNat true)) :=
  fileOp_status h fun v => setBit v b.toNat true

theorem execBcf_status {f : FileField} {s : State} (h : fileTarget f s = .status) (b : BitNum) :
    exec (.bcf f b) s = .next (s.writeStatus (setBit s.status b.toNat false)) :=
  fileOp_status h fun v => setBit v b.toNat false

section
variable {a : DataAddr} {s : State}

/-- An access at ADDR_INDF reaches what an access at the indirect address reaches (R43). -/
theorem target_indf (h : bankOffset a = s.cfg.addrIndf) (hInd : bankOffset (indEA s) ≠ s.cfg.addrIndf) :
    target a s = target (indEA s) s := by
  simp only [target, h, hInd, if_true, if_false]

theorem target_indfItself (h : bankOffset a = s.cfg.addrIndf)
    (hInd : bankOffset (indEA s) = s.cfg.addrIndf) : target a s = .indfItself := by
  simp only [target, h, hInd, if_true]

/-- A read sees nothing of an address but its target. -/
theorem dataRead_of_target {a' : DataAddr} (h : target a s = target a' s) :
    dataRead a s = dataRead a' s := by
  rw [dataRead, dataRead, h]

/-- A write sees nothing of an address but its target. -/
theorem dataWrite_of_target {a' : DataAddr} (h : target a s = target a' s) (v : Byte) :
    dataWrite a v s = dataWrite a' v s := by
  rw [dataWrite, dataWrite, h]

theorem dataRead_of_indfItself (h : target a s = .indfItself) : dataRead a s = .next (0#8, s) := by
  rw [dataRead, h]
  rfl

theorem dataWrite_of_indfItself (h : target a s = .indfItself) (v : Byte) :
    dataWrite a v s = .next s := by
  rw [dataWrite, h]
  rfl

end

end Sys2Proof.Machine

namespace Sys2Proof.Claims

open Sys2Proof.Machine

/-- Settles O11, from the number of the direct address and what a bit instruction does to STATUS. -/
theorem directAddressTakesTheBankFromStatus : Obligations.DirectAddressTakesTheBankFromStatus := by
  refine ⟨dataEA_toNat, fun f b s hStatus => ⟨⟨_, execBsf_status hStatus b, fun j => ?_⟩,
    ⟨_, execBcf_status hStatus b, fun j => ?_⟩⟩⟩
  · exact (getLsbD_writeStatus_setBit s b true j).trans (Bool.if_true_left ..)
  · exact (getLsbD_writeStatus_setBit s b false j).trans (Bool.if_false_left ..)

/-- Settles O12, from the target of an access at ADDR_INDF. -/
theorem indirectAddressTakesIrpAndFsr : Obligations.IndirectAddressTakesIrpAndFsr := by
  intro s
  refine ⟨indEA_toNat s, fun a ha => ⟨fun hInd => ?_, fun hInd => ?_⟩⟩
  · have hTarget := target_indf ha hInd
    exact ⟨dataRead_of_target hTarget, dataWrite_of_target hTarget⟩
  · have hTarget := target_indfItself ha hInd
    exact ⟨dataRead_of_indfItself hTarget, dataWrite_of_indfItself hTarget⟩

end Sys2Proof.Claims
end

section
/-! The decoder against the encoder (30_encoding.md R66 to R68): a decoded word is its instruction's word
up to the don't-care bits, and the words the decoder rejects are the unassigned ones. -/

namespace Sys2Proof

open Sys2Proof.Claims

/-! ## The fields of a word, put together again (R65) -/

theorem eq_ofNat_of_toNat_eq {k n : Nat} {x : BitVec k} (h : x.toNat = n) : x = BitVec.ofNat k n := by
  rw [← h, BitVec.ofNat_toNat, BitVec.setWidth_eq]

theorem bit_of_getLsbD {w : CodeWord} {b : Bool} {j : Nat} (hb : w.getLsbD j = b) :
    w.extractLsb' j 1 = BitVec.ofBool b := by
  rw [← hb, BitVec.getLsbD_eq_extractLsb']
  rcases BitVec.eq_zero_or_eq_one (w.extractLsb' j 1) with h | h <;> rw [h] <;> rfl

theorem fieldD_bit (w : CodeWord) : (fieldD w).bit = w.extractLsb' 7 1 := by
  rw [fieldD, bit_of_getLsbD rfl]
  cases w.getLsbD 7 <;> rfl

theorem fileWord_fields (w : CodeWord) : w.extractLsb' 7 7 ++ fieldF w = w := by
  rw [fieldF, BitVec.extractLsb'_append_extractLsb'_eq_extractLsb' (by rfl), BitVec.extractLsb'_eq_self]

theorem byteWord_fields (w : CodeWord) : w.extractLsb' 8 6 ++ (fieldD w).bit ++ fieldF w = w := by
  rw [fieldD_bit, BitVec.extractLsb'_append_extractLsb'_eq_extractLsb' (by rfl)]
  exact fileWord_fields w

theorem bitWord_fields (w : CodeWord) : w.extractLsb' 10 4 ++ fieldB w ++ fieldF w = w := by
  rw [fieldB, BitVec.extractLsb'_append_extractLsb'_eq_extractLsb' (by rfl)]
  exact fileWord_fields w

theorem jumpWord_fields (w : CodeWord) : w.extractLsb' 11 3 ++ fieldK11 w = w := by
  rw [fieldK11, BitVec.extractLsb'_append_extractLsb'_eq_extractLsb' (by rfl), BitVec.extractLsb'_eq_self]

/-! ## The opcode bits, from what the tree of R66 looks at -/

section
variable {w : CodeWord} {g n : Nat}

theorem opcode_of_group_bit11 {b : Bool} (hg : (w.extractLsb' 12 2).toNat = g) (hb : w.getLsbD 11 = b) :
    w.extractLsb' 11 3 = BitVec.ofNat 2 g ++ BitVec.ofBool b := by
  rw [← eq_ofNat_of_toNat_eq hg, ← bit_of_getLsbD hb,
    BitVec.extractLsb'_append_extractLsb'_eq_extractLsb' (by rfl)]

theorem opcode_of_group_nibble (hg : (w.extractLsb' 12 2).toNat = g) (hn : (w.extractLsb' 8 4).toNat = n) :
    w.extractLsb' 8 6 = BitVec.ofNat 2 g ++ BitVec.ofNat 4 n := by
  rw [← eq_ofNat_of_toNat_eq hg, ← eq_ofNat_of_toNat_eq hn,
    BitVec.extractLsb'_append_extractLsb'_eq_extractLsb' (by rfl)]

theorem opcode_of_group_nibble_bit7 (hg : (w.extractLsb' 12 2).toNat = g)
    (hn : (w.extractLsb' 8 4).toNat = n) {b : Bool} (hb : w.getLsbD 7 = b) :
    w.extractLsb' 7 7 = BitVec.ofNat 2 g ++ BitVec.ofNat 4 n ++ BitVec.ofBool b := by
  rw [← opcode_of_group_nibble hg hn, ← bit_of_getLsbD hb,
    BitVec.extractLsb'_append_extractLsb'_eq_extractLsb' (by rfl)]

theorem opcode_of_group_bits11_10 (hg : (w.extractLsb' 12 2).toNat = g)
    (hn : (w.extractLsb' 10 2).toNat = n) :
    w.extractLsb' 10 4 = BitVec.ofNat 2 g ++ BitVec.ofNat 2 n := by
  rw [← eq_ofNat_of_toNat_eq hg, ← eq_ofNat_of_toNat_eq hn,
    BitVec.extractLsb'_append_extractLsb'_eq_extractLsb' (by rfl)]

end

/-! ## The encoding of a decoded word (R67), along the tree -/

theorem word_and_not_zero (w : CodeWord) : w &&& ~~~0x0000#14 = w := BitVec.and_allOnes

section
variable {w : CodeWord} {i : Instr} {n : Nat}

/-- The low seven bits of a constant's word are one of eight numbers: nothing is left but to look. -/
theorem encode_of_decodeConstant (ho : w.extractLsb' 7 7 = 0#7) (h : decodeConstant w = .ok i) :
    encode i = w &&& ~~~(dontCares i) := by
  rw [← fileWord_fields w, ho]
  unfold decodeConstant at h
  split at h <;> cases h <;> rw [eq_ofNat_of_toNat_eq ‹(fieldF w).toNat = _›] <;> decide

/-- Seven opcode bits and `f`, no don't-care bit. -/
theorem fileWord_canonical {o : BitVec 7} (ho : w.extractLsb' 7 7 = o) :
    o ++ fieldF w = w &&& ~~~0x0000#14 := by
  rw [← ho, fileWord_fields, word_and_not_zero]

/-- Seven opcode bits and seven don't-care bits. -/
theorem opcodeOnly_canonical {o : BitVec 7} (ho : w.extractLsb' 7 7 = o) :
    o ++ 0#7 = w &&& ~~~(0#7 ++ 0x7F#7) := by
  conv_rhs => rw [← fileWord_fields w, ho, BitVec.not_append, BitVec.and_append]
  exact congrArg₂ (· ++ ·) BitVec.and_allOnes.symm BitVec.and_zero.symm

theorem byteWord_canonical {o : BitVec 6} (hg : (w.extractLsb' 12 2).toNat = 0)
    (hn : (w.extractLsb' 8 4).toNat = n) (ho : 0#2 ++ BitVec.ofNat 4 n = o) :
    o ++ (fieldD w).bit ++ fieldF w = w &&& ~~~0x0000#14 := by
  rw [← ho, ← opcode_of_group_nibble hg hn, byteWord_fields, word_and_not_zero]

theorem bitWord_canonical {o : BitVec 4} (hg : (w.extractLsb' 12 2).toNat = 1)
    (hn : (w.extractLsb' 10 2).toNat = n) (ho : 1#2 ++ BitVec.ofNat 2 n = o) :
    o ++ fieldB w ++ fieldF w = w &&& ~~~0x0000#14 := by
  rw [← ho, ← opcode_of_group_bits11_10 hg hn, bitWord_fields, word_and_not_zero]

theorem jumpWord_canonical {o : BitVec 3} {b : Bool} (hg : (w.extractLsb' 12 2).toNat = 2)
    (hb : w.getLsbD 11 = b) (ho : 2#2 ++ BitVec.ofBool b = o) :
    o ++ fieldK11 w = w &&& ~~~0x0000#14 := by
  rw [← ho, ← opcode_of_group_bit11 hg hb, jumpWord_fields, word_and_not_zero]

/-- Six opcode bits, those of `x` don't-care bits, and `k`. -/
theorem literalWord_canonical {o : BitVec 6} (x : BitVec 6)
    (hg : (w.extractLsb' 12 2).toNat = 3) (hn : (w.extractLsb' 8 4).toNat = n)
    (ho : (3#2 ++ BitVec.ofNat 4 n) &&& ~~~x = o) :
    o ++ fieldK8 w = w &&& ~~~(x ++ 0#8) := by
  rw [← ho, ← opcode_of_group_nibble hg hn]
  conv_rhs => rw [word_split w, BitVec.not_append, BitVec.and_append]
  exact congrArg _ BitVec.and_allOnes.symm

theorem encode_of_decodeByteOriented (hg : (w.extractLsb' 12 2).toNat = 0)
    (h : decodeByteOriented w = .ok i) : encode i = w &&& ~~~(dontCares i) := by
  unfold decodeByteOriented at h
  split at h
  case h_15 hn =>
    split at h <;> cases h
    case isTrue hb => exact fileWord_canonical (opcode_of_group_nibble_bit7 hg hn hb)
    case isFalse hb =>
      exact opcodeOnly_canonical (opcode_of_group_nibble_bit7 hg hn (Bool.eq_false_of_not_eq_true hb))
  case h_16 =>
    have hn : (w.extractLsb' 8 4).toNat = 0 := by grind
    split at h
    case isTrue hb =>
      cases h
      exact fileWord_canonical (opcode_of_group_nibble_bit7 hg hn hb)
    case isFalse hb =>
      exact encode_of_decodeConstant
        (opcode_of_group_nibble_bit7 hg hn (Bool.eq_false_of_not_eq_true hb)) h
  all_goals
    cases h
    exact byteWord_canonical hg ‹_› (by decide)

theorem encode_of_decodeBitOriented (hg : (w.extractLsb' 12 2).toNat = 1) :
    encode (decodeBitOriented w) = w &&& ~~~(dontCares (decodeBitOriented w)) := by
  unfold decodeBitOriented
  split
  case h_4 =>
    have hn : (w.extractLsb' 10 2).toNat = 3 := by grind
    exact bitWord_canonical hg hn (by decide)
  all_goals exact bitWord_canonical hg ‹_› (by decide)

theorem encode_of_decodeJump (hg : (w.extractLsb' 12 2).toNat = 2) :
    encode (decodeJump w) = w &&& ~~~(dontCares (decodeJump w)) := by
  cases hb : w.getLsbD 11 <;> simp only [decodeJump, hb] <;> exact jumpWord_canonical hg hb (by decide)

theorem encode_of_decodeLiteral (hg : (w.extractLsb' 12 2).toNat = 3)
    (h : decodeLiteral w = .ok i) : encode i = w &&& ~~~(dontCares i) := by
  unfold decodeLiteral at h
  split at h <;> cases h
  case h_1 hn | h_2 hn | h_3 hn | h_4 hn => exact literalWord_canonical 1#6 hg hn (by decide)
  case h_6 hn | h_7 hn | h_8 hn => exact literalWord_canonical 0#6 hg hn (by decide)
  case h_9 hn | h_10 hn | h_11 hn | h_12 hn => exact literalWord_canonical 3#6 hg hn (by decide)
  case h_13 =>
    have hSmall : ∀ n < 4, (3#2 ++ BitVec.ofNat 4 n) &&& ~~~3#6 = 0b110000#6 := by decide
    exact literalWord_canonical 3#6 hg rfl (hSmall _ (by grind))

theorem encode_of_decode (h : decode w = .ok i) : encode i = w &&& ~~~(dontCares i) := by
  unfold decode at h
  split at h
  case h_1 hg => exact encode_of_decodeByteOriented hg h
  case h_2 hg =>
    cases h
    exact encode_of_decodeBitOriented hg
  case h_3 hg =>
    cases h
    exact encode_of_decodeJump hg
  case h_4 => exact encode_of_decodeLiteral (by grind) h

end

/-! ## Decoding a word with any don't-care bits (R67) -/

theorem literalWord_or (o m : BitVec 6) (k : Byte) (x : CodeWord) :
    (o ++ k) ||| (x &&& (m ++ 0#8)) = (o ||| (x.extractLsb' 8 6 &&& m)) ++ k := by
  conv_lhs => rw [word_split x, BitVec.and_append, BitVec.or_append, BitVec.and_zero, BitVec.or_zero]

theorem fileWord_or (o m f : BitVec 7) (x : CodeWord) :
    (o ++ f) ||| (x &&& (0#7 ++ m)) = o ++ (f ||| (fieldF x &&& m)) := by
  conv_lhs => rw [← fileWord_fields x, BitVec.and_append, BitVec.or_append, BitVec.and_zero, BitVec.or_zero]

theorem and_one_cases : ∀ y : BitVec 6, y &&& 1#6 = 0#6 ∨ y &&& 1#6 = 1#6 := by decide

theorem and_three_cases : ∀ y : BitVec 6,
    y &&& 3#6 = 0#6 ∨ y &&& 3#6 = 1#6 ∨ y &&& 3#6 = 2#6 ∨ y &&& 3#6 = 3#6 := by decide

theorem and_60h_cases : ∀ y : BitVec 7,
    y &&& 0x60#7 = 0#7 ∨ y &&& 0x60#7 = 0x20#7 ∨ y &&& 0x60#7 = 0x40#7 ∨ y &&& 0x60#7 = 0x60#7 := by decide

/-- Whatever the don't-care bits hold, the word decodes to its instruction. -/
theorem decode_encode_or (i : Instr) (x : CodeWord) :
    decode (encode i ||| (x &&& dontCares i)) = .ok i := by
  cases i with
  | nop =>
    refine (congrArg decode (fileWord_or 0#7 0x60#7 0#7 x)).trans ?_
    rcases and_60h_cases (fieldF x) with h | h | h | h <;> rw [h] <;> decide
  | clrw =>
    refine (congrArg decode (fileWord_or 0b0000010#7 0x7F#7 0#7 x)).trans ?_
    simp [decode, decodeByteOriented, group_fileWord, nibble_fileWord, bit7_fileWord,
      -BitVec.getLsbD_eq_getElem]
  | addlw k | sublw k =>
    refine (congrArg decode (literalWord_or _ 1#6 k x)).trans ?_
    rcases and_one_cases (x.extractLsb' 8 6) with h | h <;>
      simp [h, decode, decodeLiteral, group_literalWord, nibble_literalWord, fieldK8_append]
  | movlw k | retlw k =>
    refine (congrArg decode (literalWord_or _ 3#6 k x)).trans ?_
    rcases and_three_cases (x.extractLsb' 8 6) with h | h | h | h <;>
      simp [h, decode, decodeLiteral, group_literalWord, nibble_literalWord, fieldK8_append]
  | andlw k | iorlw k | xorlw k =>
    simp [encode, dontCares, decode, decodeLiteral, group_literalWord, nibble_literalWord, fieldK8_append]
  | clrf f | movwf f =>
    simp [encode, dontCares, decode, decodeByteOriented, group_fileWord, nibble_fileWord, bit7_fileWord,
      fieldF_append, -BitVec.getLsbD_eq_getElem]
  | addwf f d | andwf f d | comf f d | decf f d | decfsz f d | incf f d | incfsz f d | iorwf f d
  | movf f d | rlf f d | rrf f d | subwf f d | swapf f d | xorwf f d =>
    simp [encode, dontCares, decode, decodeByteOriented, group_byteWord, nibble_byteWord, fieldF_byteWord,
      fieldD_byteWord]
  | bcf f b | bsf f b | btfsc f b | btfss f b =>
    simp [encode, dontCares, decode, decodeBitOriented, group_bitWord, opcode_bitWord, fieldF_bitWord,
      fieldB_append]
  | call k | goto k =>
    simp [encode, dontCares, decode, decodeJump, group_append, bit11_append, fieldK11_append,
      -BitVec.getLsbD_eq_getElem]
  | clrwdt | retfie | ret | sleep =>
    rw [dontCares, BitVec.and_zero, BitVec.or_zero]
    decide

/-! ## The words the decoder rejects (R68) -/

section
variable {w : CodeWord}

/-! One lemma for each branching of the tree that can reject a word. -/

theorem decodeConstant_error : (∃ r, decodeConstant w = .error r) ↔
    (fieldF w).toNat ∉ [0x00, 0x20, 0x40, 0x60, 0x08, 0x09, 0x63, 0x64] := by
  unfold decodeConstant
  split <;> simp_all

theorem decodeByteOriented_error : (∃ r, decodeByteOriented w = .error r) ↔
    (w.extractLsb' 8 4).toNat = 0 ∧ w.getLsbD 7 = false ∧ ∃ r, decodeConstant w = .error r := by
  unfold decodeByteOriented
  split
  case h_16 =>
    have hn : (w.extractLsb' 8 4).toNat = 0 := by grind
    cases w.getLsbD 7 <;> simp [hn]
  case h_15 hn => split <;> simp [hn]
  all_goals
    rename_i hn
    simp [hn]

theorem decodeLiteral_error : (∃ r, decodeLiteral w = .error r) ↔ (w.extractLsb' 8 4).toNat = 11 := by
  unfold decodeLiteral
  split <;> simp_all

theorem decode_error : (∃ r, decode w = .error r) ↔
    ((w.extractLsb' 12 2).toNat = 0 ∧ ∃ r, decodeByteOriented w = .error r) ∨
    ((w.extractLsb' 12 2).toNat = 3 ∧ ∃ r, decodeLiteral w = .error r) := by
  unfold decode
  split
  case h_4 =>
    have hn : (w.extractLsb' 12 2).toNat = 3 := by grind
    simp [hn]
  all_goals simp_all

theorem fieldF_toNat (w : CodeWord) : (fieldF w).toNat = w.toNat % 0x80 := by
  rw [fieldF, BitVec.extractLsb'_toNat, Nat.shiftRight_zero]

theorem below_80h_iff : w.toNat < 0x80 ↔
    (w.extractLsb' 12 2).toNat = 0 ∧ (w.extractLsb' 8 4).toNat = 0 ∧ w.getLsbD 7 = false := by
  have := w.isLt
  simp only [BitVec.extractLsb'_toNat, Nat.shiftRight_eq_div_pow, BitVec.getLsbD,
    Nat.testBit_eq_decide_div_mod_eq, decide_eq_false_iff_not]
  omega

theorem from_3B00h_to_3BFFh_iff : 0x3B00 ≤ w.toNat ∧ w.toNat ≤ 0x3BFF ↔
    (w.extractLsb' 12 2).toNat = 3 ∧ (w.extractLsb' 8 4).toNat = 11 := by
  have := w.isLt
  simp only [BitVec.extractLsb'_toNat, Nat.shiftRight_eq_div_pow]
  omega

theorem decode_error_iff_unassigned : (∃ r, decode w = .error r) ↔ Unassigned w := by
  rw [decode_error, decodeByteOriented_error, decodeConstant_error, decodeLiteral_error, Unassigned,
    from_3B00h_to_3BFFh_iff]
  refine or_congr ?_ Iff.rfl
  rw [← and_assoc, ← and_assoc, and_assoc (a := (w.extractLsb' 12 2).toNat = 0), ← below_80h_iff]
  exact and_congr_right fun hLow => by rw [fieldF_toNat, Nat.mod_eq_of_lt hLow]

end

/-! ## The number of the unassigned words (R68): 120 below 80h, and the 256 from 3B00h on -/

theorem unassigned_ofNat {n : Nat} (h : n < 16384) : Unassigned (BitVec.ofNat 14 n) ↔
    (n < 0x80 ∧ n ∉ [0x00, 0x20, 0x40, 0x60, 0x08, 0x09, 0x63, 0x64]) ∨ (0x3B00 ≤ n ∧ n ≤ 0x3BFF) := by
  rw [Unassigned, BitVec.toNat_ofNat, Nat.mod_eq_of_lt h]

theorem range_cut : List.range 16384 =
    List.range' 0 0x80 ++ List.range' 0x80 0x3A80 ++ List.range' 0x3B00 0x100 ++
      List.range' 0x3C00 0x400 := by
  rw [List.range_eq_range', List.range'_append_1, List.range'_append_1, List.range'_append_1]

section
variable {p : Nat → Bool} (hp : ∀ n < 16384, p n = true ↔ Unassigned (BitVec.ofNat 14 n))
include hp

theorem countP_below_80h : (List.range' 0 0x80).countP p = 120 := by
  rw [List.countP_congr (q := fun n => decide (n ∉ [0x00, 0x20, 0x40, 0x60, 0x08, 0x09, 0x63, 0x64]))]
  · decide
  · intro n hn
    rw [List.mem_range'_1] at hn
    rw [hp n (by omega), unassigned_ofNat (by omega), decide_eq_true_iff]
    exact ⟨fun h => (h.resolve_right (by omega)).2, fun h => .inl ⟨by omega, h⟩⟩

theorem countP_3B00h_to_3BFFh : (List.range' 0x3B00 0x100).countP p = 0x100 := by
  rw [List.countP_eq_length.mpr, List.length_range']
  intro n hn
  rw [List.mem_range'_1] at hn
  rw [hp n (by omega), unassigned_ofNat (by omega)]
  omega

theorem countP_elsewhere {a len : Nat} (h : 0x80 ≤ a ∧ a + len ≤ 0x3B00 ∨ 0x3C00 ≤ a ∧ a + len ≤ 16384) :
    (List.range' a len).countP p = 0 := by
  rw [List.countP_eq_zero]
  intro n hn
  rw [List.mem_range'_1] at hn
  rw [hp n (by omega), unassigned_ofNat (by omega)]
  omega

theorem length_filter_unassigned : ((List.range 16384).filter p).length = 376 := by
  rw [← List.countP_eq_length_filter, range_cut, List.countP_append, List.countP_append, List.countP_append,
    countP_below_80h hp, countP_elsewhere hp (by omega), countP_3B00h_to_3BFFh hp,
    countP_elsewhere hp (by omega)]

end

end Sys2Proof

namespace Sys2Proof.Machine

open Sys2Proof.Claims

theorem cpuTurn_setEnv {s u : State} (h : CpuTurn s u) : ∃ rest, u = s.setEnv rest := by
  rcases h with ⟨-, rfl⟩ | ⟨rest, -, rfl⟩
  · exact ⟨_, rfl⟩
  · exact ⟨rest, rfl⟩

/-- On its turn the CPU moves. -/
theorem step_of_cpuTurn {s u : State} (h : CpuTurn s u) : step s = cpuStep u := by
  rcases h with ⟨hEnv, rfl⟩ | ⟨rest, hEnv, rfl⟩
  · rw [step, scheduledStep, hEnv]
  · rw [step, scheduledStep, hEnv]
    rfl

theorem awakeStep_of_decode_error {s : State} {r : DecodeReject} (h : decode (s.progRead s.pc) = .error r) :
    awakeStep s = .fault (.reservedInstruction s.pc (s.progRead s.pc)) := by
  rw [awakeStep, h]

theorem cpuStep_awake {s : State} (h : s.asleep = false) : cpuStep s = awakeStep s := by
  simp [cpuStep, h]

theorem step_reservedInstruction {s u : State} (hTurn : CpuTurn s u) (hAwake : s.asleep = false)
    (h : Unassigned (s.progRead s.pc)) :
    step s = .fault (.reservedInstruction s.pc (s.progRead s.pc)) := by
  obtain ⟨r, hr⟩ := decode_error_iff_unassigned.mpr h
  rw [step_of_cpuTurn hTurn]
  obtain ⟨rest, rfl⟩ := cpuTurn_setEnv hTurn
  exact (cpuStep_awake (s := s.setEnv rest) hAwake).trans (awakeStep_of_decode_error hr)

end Sys2Proof.Machine

namespace Sys2Proof.Claims

open Sys2Proof.Machine

/-- Settles O3, from the encoding of a decoded word and the decoding of a word with don't-care bits. -/
theorem encodingADecodedWordClearsItsDontCares : Obligations.EncodingADecodedWordClearsItsDontCares :=
  ⟨fun _ _ h => encode_of_decode h, decode_encode_or⟩

/-- Settles O5, from the errors of the decode tree, their number, and what the awake CPU does. -/
theorem unassignedWordsStopTheRun : Obligations.UnassignedWordsStopTheRun := by
  refine ⟨fun _ => decode_error_iff_unassigned, length_filter_unassigned fun n _ => ?_,
    fun _ _ hTurn hAwake h => step_reservedInstruction hTurn hAwake h⟩
  rw [← decode_error_iff_unassigned]
  cases decode (BitVec.ofNat 14 n) <;> simp

end Sys2Proof.Claims
end

section
/-! The byte-oriented operations (41_byte_oriented.md): the rule each follows is that of its shape in
Machine/Operands.lean, and what is left is the arithmetic of its result and flags. -/

namespace Sys2Proof.Machine

theorem andThen_pure {α : Type} (x : Result α) : andThen x .next = x := by
  cases x <;> rfl

/-! ## Result bytes and flag bits as numbers (R103, R107, R108, R110, R116 to R119) -/

section
variable (v : Byte) (b : Bool)

theorem ofNat_add_eq_sum8 (a c : Byte) : BitVec.ofNat 8 (a.toNat + c.toNat) = sum8 a c false := by
  apply BitVec.eq_of_toNat_eq
  rw [BitVec.toNat_ofNat, sum8_toNat]
  rfl

theorem ofNat_sub_eq_sum8 (w : Byte) :
    BitVec.ofNat 8 (v.toNat + 256 - w.toNat) = sum8 v (~~~w) true := by
  have hw := w.isLt
  apply BitVec.eq_of_toNat_eq
  rw [BitVec.toNat_ofNat, sum8_toNat, not_toNat, Bool.toNat_true]
  omega

theorem sum8_eq_zero_iff (a c : Byte) (cin : Bool) :
    sum8 a c cin = 0#8 ↔ (a.toNat + c.toNat + cin.toNat) % 256 = 0 := by
  rw [← BitVec.toNat_inj, sum8_toNat]
  rfl

theorem ofNat_complement : BitVec.ofNat 8 (255 - v.toNat) = ~~~v := by
  rw [← not_toNat, BitVec.ofNat_toNat, BitVec.setWidth_eq]

theorem ofNat_decrement : BitVec.ofNat 8 (v.toNat + 255) = v - 1#8 := by
  rw [BitVec.ofNat_add, BitVec.ofNat_toNat, BitVec.setWidth_eq]
  exact (sub_eq_add_neg v 1#8).symm

theorem ofNat_increment : BitVec.ofNat 8 (v.toNat + 1) = v + 1#8 := by
  rw [BitVec.ofNat_add, BitVec.ofNat_toNat, BitVec.setWidth_eq]

theorem ofNat_rotateLeft :
    BitVec.ofNat 8 (2 * v.toNat + b.toNat) = (v.extractLsb' 0 7 ++ BitVec.ofBool b : Byte) := by
  have hb := Bool.toNat_lt b
  apply BitVec.eq_of_toNat_eq
  rw [BitVec.toNat_ofNat]
  refine Eq.trans ?_ (toNat_append_eq _ _).symm
  rw [BitVec.extractLsb'_toNat, BitVec.toNat_ofBool, Nat.shiftRight_zero]
  omega

theorem ofNat_rotateRight :
    BitVec.ofNat 8 (v.toNat / 2 + 128 * b.toNat) = (BitVec.ofBool b ++ v.extractLsb' 1 7 : Byte) := by
  have hb := Bool.toNat_lt b
  have hv := v.isLt
  apply BitVec.eq_of_toNat_eq
  rw [BitVec.toNat_ofNat]
  refine Eq.trans ?_ (toNat_append_eq _ _).symm
  rw [BitVec.extractLsb'_toNat, BitVec.toNat_ofBool, Nat.shiftRight_eq_div_pow]
  omega

theorem ofNat_swapNibbles :
    BitVec.ofNat 8 (16 * (v.toNat % 16) + v.toNat / 16) =
      (v.extractLsb' 0 4 ++ v.extractLsb' 4 4 : Byte) := by
  have hHigh : v.toNat / 16 < 16 := Nat.div_lt_of_lt_mul v.isLt
  apply BitVec.eq_of_toNat_eq
  rw [BitVec.toNat_ofNat]
  refine Eq.trans ?_ (toNat_append_eq _ _).symm
  simp only [BitVec.extractLsb'_toNat, Nat.shiftRight_eq_div_pow, Nat.reducePow,
    Nat.div_one, Nat.mod_eq_of_lt hHigh]
  omega

theorem getLsbD_seven : v.getLsbD 7 = decide (128 ≤ v.toNat) := by
  have hv := v.isLt
  rw [BitVec.getLsbD, Nat.testBit_eq_decide_div_mod_eq, decide_eq_decide]
  omega

theorem getLsbD_zero : v.getLsbD 0 = decide (v.toNat % 2 = 1) := by
  rw [BitVec.getLsbD, Nat.testBit_eq_decide_div_mod_eq, pow_zero, Nat.div_one]

end

end Sys2Proof.Machine

namespace Sys2Proof

open Sys2Proof.Claims

/-! ## The words -/

theorem decode_encode (i : Instr) : decode (encode i) = .ok i := by
  simpa using decode_encode_or i 0#14

/-- A word of the byte-oriented format, its destination bit written as R61 says. -/
theorem decode_byteWord {o : BitVec 6} {d : Dest} {f : FileField} {i : Instr}
    (h : encode i = o ++ d.bit ++ f) : decode (o ++ dBit d ++ f) = .ok i := by
  have hd : dBit d = d.bit := by cases d <;> rfl
  rw [hd, ← h, decode_encode]

/-- CLRW's low seven bits are free. -/
theorem decode_clrwWord (x : BitVec 7) : decode (0b0000010#7 ++ x) = .ok .clrw := by
  have hx : encode .clrw ||| ((0#7 ++ x) &&& dontCares .clrw) = 0b0000010#7 ++ x := by
    refine (fileWord_or 0b0000010#7 0x7F#7 0#7 (0#7 ++ x)).trans ?_
    rw [fieldF_append, BitVec.zero_or]
    exact congrArg _ BitVec.and_allOnes
  rw [← hx, decode_encode_or]

/-- NOP's bits 6 and 5 are free. -/
theorem decode_nopWord : ∀ x : BitVec 2, decode (0b0000000#7 ++ x ++ 0b00000#5) = .ok .nop := by
  decide

end Sys2Proof

namespace Sys2Proof.Claims

open Sys2Proof.Machine

/-! ## The shape of R100 and the rule it follows -/

/-- A rule for the byte read, as a change of the state. -/
def ruleChange (f : FileField) (d : Dest) (s : State) (r : FileRule) : Change :=
  { plainChange f d (fun _ => r.result) s with z := r.z, dc := r.dc, c := r.c, skip := r.skip.getD false }

section
variable {i : Instr} {f : FileField} {d : Dest} {s : State} {result : Byte → Byte}

theorem followsFileRule_of_fileOp {last : Byte → State → State} {rule : Byte → FileRule}
    (hExec : exec i s = fileOp f d result last s)
    (hCycles : cycles i s =
      (rule (valueAt (fileTarget f s) s)).skip.elim (cyclesOfWrite d f s) cyclesOfSkip)
    (hDoes : ∀ t, fileOp f d result last s = .next t →
      Does (ruleChange f d s (rule (valueAt (fileTarget f s) s))) s t) :
    FollowsFileRule i f (some d) s rule := by
  refine ⟨fun a ha => hExec.trans (fileOp_fault ha ..), fun hm => ⟨?_, ?_⟩⟩
  · refine ⟨_, hExec.trans (fileOp_eq hm ..), ?_⟩
    simpa [ruleChange, plainChange] using hDoes _ (fileOp_eq hm ..)
  · rw [hCycles]
    cases (rule (valueAt (fileTarget f s) s)).skip <;> simp [cyclesOfWrite, cyclesOfSkip]

/-! One lemma for each way an instruction ends: no flag, Z alone, C alone, and C, DC and Z together.
The result and the flags may be written in words other than the model's. -/

section
variable {r : Byte → Byte} (hCycles : cycles i s = cyclesOfWrite d f s) (hr : ∀ v, r v = result v)
include hCycles hr

theorem followsFileRule_plain (hExec : exec i s = fileOp f d result (fun _ t => t) s) :
    FollowsFileRule i f (some d) s fun v => { result := r v } := by
  obtain rfl : r = result := funext hr
  exact followsFileRule_of_fileOp hExec hCycles fun _ h => fileOp_plain h

theorem followsFileRule_flagZ {Z : Byte → Prop} [∀ v, Decidable (Z v)]
    (hExec : exec i s = fileOp f d result (fun v => flagZ (result v)) s) (hZ : ∀ v, Z v ↔ result v = 0#8) :
    FollowsFileRule i f (some d) s fun v => { result := r v, z := some (decide (Z v)) } := by
  obtain rfl : r = result := funext hr
  refine followsFileRule_of_fileOp hExec hCycles fun _ h => ?_
  rw [decide_eq_decide.mpr (hZ _)]
  exact (fileOp_flagZ h :)

theorem followsFileRule_carry {c : Byte → Bool} {C : Byte → Prop} [∀ v, Decidable (C v)]
    (hExec : exec i s = fileOp f d result (fun v t => t.setCarry (c v)) s) (hC : ∀ v, c v = decide (C v)) :
    FollowsFileRule i f (some d) s fun v => { result := r v, c := some (decide (C v)) } := by
  obtain rfl : r = result := funext hr
  refine followsFileRule_of_fileOp hExec hCycles fun _ h => ?_
  rw [← hC]
  exact (fileOp_carry h :)

theorem followsFileRule_flags {a b : Byte → Byte} {cin : Bool} {Z D C : Byte → Prop}
    [∀ v, Decidable (Z v)] [∀ v, Decidable (D v)] [∀ v, Decidable (C v)]
    (hExec : exec i s = fileOp f d result (fun v => flagsCDcZ (a v) (b v) cin) s)
    (hZ : ∀ v, Z v ↔ ((a v).toNat + (b v).toNat + cin.toNat) % 256 = 0)
    (hD : ∀ v, D v ↔ 16 ≤ (a v).toNat % 16 + (b v).toNat % 16 + cin.toNat)
    (hC : ∀ v, C v ↔ 256 ≤ (a v).toNat + (b v).toNat + cin.toNat) :
    FollowsFileRule i f (some d) s fun v =>
      { result := r v, z := some (decide (Z v)), dc := some (decide (D v)), c := some (decide (C v)) } := by
  obtain rfl : r = result := funext hr
  refine followsFileRule_of_fileOp hExec hCycles fun _ h => ?_
  rw [decide_eq_decide.mpr ((hZ _).trans (sum8_eq_zero_iff ..).symm), decide_eq_decide.mpr (hD _),
    decide_eq_decide.mpr (hC _), ← carry4_eq, ← carry8_eq]
  exact (fileOp_flags h :)

end

end

/-! ## Stores without a read, and no file register at all -/

section
variable {i : Instr} {f : FileField} {s : State} {v : Byte} {z : Option Bool}

theorem followsWriteRule_of_fileWrite {last : State → State}
    (hExec : exec i s = andThen (fileWrite f v s) fun t => .next (last t))
    (hCycles : cycles i s = cyclesOfWrite .f f s)
    (hDoes : ∀ t, exec i s = .next t → Does { store := some (fileTarget f s, v), z := z } s t) :
    FollowsWriteRule i f s v z := by
  refine ⟨fun a ha => ?_, fun hm => ⟨?_, ?_⟩⟩
  · rw [hExec, fileWrite_fault ha, andThen_fault]
  · have hNext : exec i s = .next (last (stored (fileTarget f s) v s)) := by
      rw [hExec, fileWrite_eq hm, andThen_next]
    exact ⟨_, hNext, hDoes _ hNext⟩
  · simp [hCycles, cyclesOfWrite]

theorem clrf_followsWriteRule (f : FileField) (s : State) :
    FollowsWriteRule (.clrf f) f s 0x00#8 (some true) :=
  followsWriteRule_of_fileWrite rfl rfl fun _ h => execClrf_does h

theorem movwf_followsWriteRule (f : FileField) (s : State) : FollowsWriteRule (.movwf f) f s s.w none :=
  followsWriteRule_of_fileWrite (last := id) (andThen_pure _).symm rfl fun _ h => execMovwf_does h

theorem clrw_followsRegisterRule (s : State) :
    FollowsRegisterRule .clrw s { w := some 0x00#8, z := some true } :=
  ⟨⟨_, rfl, ((Does.nothing s).withW _).withZero _⟩, rfl⟩

theorem nop_followsRegisterRule (s : State) : FollowsRegisterRule .nop s {} :=
  ⟨⟨_, rfl, Does.nothing s⟩, rfl⟩

end

/-! ## The statements -/

/-- Settles O22, the flags being comparisons of the sum and of the sum of the low nibbles. -/
theorem addwfAddsWAndFileRegister : Obligations.AddwfAddsWAndFileRegister :=
  ⟨fun _ _ => decode_byteWord rfl, fun _ _ s =>
    followsFileRule_flags (a := fun _ => s.w) (b := fun v => v) (cin := false)
      rfl (fun v => ofNat_add_eq_sum8 s.w v) rfl (fun _ => Iff.rfl) (fun _ => Iff.rfl) (fun _ => Iff.rfl)⟩

/-- Settles O23: the borrow is the missing carry of `f + ~W + 1` (conflict C6). -/
theorem subwfSubtractsWFromFileRegister : Obligations.SubwfSubtractsWFromFileRegister := by
  refine ⟨fun _ _ => decode_byteWord rfl, fun f d s => ?_⟩
  have hw := s.w.isLt
  refine followsFileRule_flags (a := fun v => v) (b := fun _ => ~~~s.w) (cin := true)
    rfl (fun v => ofNat_sub_eq_sum8 v s.w) rfl (fun v => ?_) (fun v => ?_) (fun v => ?_)
  · have hv := v.isLt
    rw [← BitVec.toNat_inj, not_toNat, Bool.toNat_true]
    omega
  · rw [not_toNat, Bool.toNat_true]
    omega
  · rw [not_toNat, Bool.toNat_true]
    omega

/-- Settles O24, from the bit operations whose result is 0. -/
theorem andIorXorOfWAndFileRegister : Obligations.AndIorXorOfWAndFileRegister := by
  refine ⟨fun _ _ => decode_byteWord rfl, fun f d s => ?_, fun _ _ => decode_byteWord rfl,
    fun f d s => ?_, fun _ _ => decode_byteWord rfl, fun f d s => ?_⟩
  · exact followsFileRule_flagZ rfl (fun _ => rfl) rfl fun _ => Iff.rfl
  · exact followsFileRule_flagZ rfl (fun _ => rfl) rfl fun _ => BitVec.or_eq_zero_iff.symm
  · exact followsFileRule_flagZ rfl (fun _ => rfl) rfl fun _ => eq_comm.trans BitVec.xor_eq_zero_iff.symm

/-- Settles O25, from the one byte each of the four takes to 0. -/
theorem incrementDecrementComplementMove : Obligations.IncrementDecrementComplementMove := by
  refine ⟨fun _ _ => decode_byteWord rfl, fun f d s => ?_, fun _ _ => decode_byteWord rfl,
    fun f d s => ?_, fun _ _ => decode_byteWord rfl, fun f d s => ?_, fun _ _ => decode_byteWord rfl,
    fun f d s => ?_⟩
  · exact followsFileRule_flagZ rfl ofNat_complement rfl fun v => (BitVec.not_eq_comm (x := v) (y := 0#8)).symm
  · exact followsFileRule_flagZ rfl ofNat_decrement rfl fun _ => sub_eq_zero.symm
  · exact followsFileRule_flagZ rfl ofNat_increment rfl fun v => eq_neg_iff_add_eq_zero (a := v) (b := 1#8)
  · exact followsFileRule_flagZ (result := fun v => v) rfl (fun _ => rfl) rfl fun _ => Iff.rfl

/-- Settles O27: the bit rotated out is the new carry, the old carry is rotated in. -/
theorem rotatesPassThroughCarry : Obligations.RotatesPassThroughCarry := by
  refine ⟨fun _ _ => decode_byteWord rfl, fun f d s => ?_, fun _ _ => decode_byteWord rfl, fun f d s => ?_⟩
  · exact followsFileRule_carry rfl (fun v => ofNat_rotateLeft v s.carry) rfl getLsbD_seven
  · exact followsFileRule_carry rfl (fun v => ofNat_rotateRight v s.carry) rfl getLsbD_zero

/-- Settles O28, from the number of the byte with its nibbles exchanged. -/
theorem swapfExchangesNibbles : Obligations.SwapfExchangesNibbles :=
  ⟨fun _ _ => decode_byteWord rfl, fun _ _ _ => followsFileRule_plain rfl ofNat_swapNibbles rfl⟩

/-- Settles O29: a store without a read leaves no mark of a read. -/
theorem clrfAndMovwfStoreWithoutReading : Obligations.ClrfAndMovwfStoreWithoutReading :=
  ⟨fun f => decode_encode (.clrf f), clrf_followsWriteRule,
    fun f => decode_encode (.movwf f), movwf_followsWriteRule⟩

/-- Settles O30, from the decoding of their don't-care bits and the whole effect of each. -/
theorem clrwAndNopTouchNoFileRegister : Obligations.ClrwAndNopTouchNoFileRegister :=
  ⟨decode_clrwWord, clrw_followsRegisterRule, decode_nopWord, nop_followsRegisterRule⟩

end Sys2Proof.Claims
end

section
/-! The bit-oriented operations (42_bit_oriented.md): BCF and BSF have the shape of R100 with the file
register as destination, the two bit tests read the register and store nothing. -/

namespace Sys2Proof.Machine

/-- A peek finds what the target holds; both answer 0 at an unimplemented address. -/
theorem peekFile_eq_valueAt (f : FileField) (s : State) : peekFile f s = valueAt (fileTarget f s) s := by
  rcases mapped_or f s with hm | ⟨a, ha⟩
  · rw [peekFile, fileRead_eq hm]
  · rw [peekFile, fileRead_fault ha, ha]
    rfl

theorem getLsbD_eq_decide_div_mod (v : Byte) (n : Nat) :
    v.getLsbD n = decide (v.toNat / 2 ^ n % 2 = 1) :=
  Nat.testBit_eq_decide_div_mod_eq

theorem not_getLsbD_eq_decide_div_mod (v : Byte) (n : Nat) :
    (!v.getLsbD n) = decide (v.toNat / 2 ^ n % 2 = 0) := by
  rw [getLsbD_eq_decide_div_mod, ← decide_not, decide_eq_decide]
  exact Nat.mod_two_ne_one

end Sys2Proof.Machine

namespace Sys2Proof.Claims

open Sys2Proof.Machine

/-- The shape of the bit tests: one read, no store, and a skip said in words other than the model's. -/
theorem followsFileRule_of_fileTest {i : Instr} {f : FileField} {s : State} {skips : Byte → Bool}
    {K : Byte → Prop} [∀ v, Decidable (K v)] (hExec : exec i s = fileTest f skips s)
    (hCycles : cycles i s = cyclesOfSkip (skips (peekFile f s))) (hK : ∀ v, skips v = decide (K v)) :
    FollowsFileRule i f none s fun v => { skip := some (decide (K v)) } := by
  obtain rfl : skips = fun v => decide (K v) := funext hK
  refine ⟨fun a ha => hExec.trans (fileTest_fault ha _), fun hm => ⟨?_, ?_⟩⟩
  · have hNext := fileTest_eq hm fun v => decide (K v)
    exact ⟨_, hExec.trans hNext, fileTest_does hNext⟩
  · rw [hCycles, peekFile_eq_valueAt]
    rfl

/-- Settles O31: the byte stored is the byte read with one bit made 0 or 1. -/
theorem bcfAndBsfRewriteTheWholeByte : Obligations.BcfAndBsfRewriteTheWholeByte := by
  refine ⟨fun f b => decode_encode (.bcf f b), fun f b s => ?_,
    fun f b => decode_encode (.bsf f b), fun f b s => ?_⟩
  · exact followsFileRule_plain (result := fun v => setBit v b.toNat false) rfl (fun _ => rfl) rfl
  · exact followsFileRule_plain (result := fun v => setBit v b.toNat true) rfl (fun _ => rfl) rfl

/-- Settles O32: the bit tested is a binary digit of the byte's number. -/
theorem bitTestsSkipAndWriteNothing : Obligations.BitTestsSkipAndWriteNothing := by
  refine ⟨fun f b => decode_encode (.btfsc f b), fun f b s => ?_,
    fun f b => decode_encode (.btfss f b), fun f b s => ?_⟩
  · exact followsFileRule_of_fileTest rfl rfl fun v => not_getLsbD_eq_decide_div_mod v b.toNat
  · exact followsFileRule_of_fileTest rfl rfl fun v => getLsbD_eq_decide_div_mod v b.toNat

end Sys2Proof.Claims
end

section
/-! The literal operations (43_literal_operations.md): each sets W and its flags from W and the literal
in one cycle, and what is left is the arithmetic of the flags. -/

namespace Sys2Proof

open Sys2Proof.Claims

/-- A literal word whose opcode `p` is that of `i` but for the don't-care bits `m` (R67). -/
theorem decode_literalWord {o m p : BitVec 6} {k : Byte} {i : Instr} (hEncode : encode i = o ++ k)
    (hDontCares : dontCares i = m ++ 0#8) (hp : o ||| (p &&& m) = p) : decode (p ++ k) = .ok i := by
  have hWord : encode i ||| ((p ++ k) &&& dontCares i) = p ++ k := by
    rw [hEncode, hDontCares, literalWord_or, BitVec.extractLsb'_append_eq_left, hp]
  rw [← hWord, decode_encode_or]

end Sys2Proof

namespace Sys2Proof.Claims

open Sys2Proof.Machine

/-! ## The two shapes with flags -/

section
variable {i : Instr} {s : State} {r : Byte} {Z D C : Prop} [Decidable Z] [Decidable D] [Decidable C]

/-- Z alone, from the new W, said in words other than the model's. -/
theorem followsRegisterRule_flagZ (hExec : exec i s = .next (flagZ r (s.setW r))) (hCycles : cycles i s = 1)
    (hZ : Z ↔ r = 0#8) : FollowsRegisterRule i s { w := some r, z := some (decide Z) } := by
  rw [decide_eq_decide.mpr hZ]
  exact ⟨⟨_, hExec, ((Does.nothing s).withW r).withZero _⟩, hCycles⟩

/-- C, DC and Z of a sum, and the sum to W; all four may be said in words other than the model's. -/
theorem followsRegisterRule_flags {a b : Byte} {cin : Bool}
    (hExec : exec i s = .next ((flagsCDcZ a b cin s).setW (sum8 a b cin))) (hCycles : cycles i s = 1)
    (hr : r = sum8 a b cin) (hZ : Z ↔ (a.toNat + b.toNat + cin.toNat) % 256 = 0)
    (hD : D ↔ 16 ≤ a.toNat % 16 + b.toNat % 16 + cin.toNat)
    (hC : C ↔ 256 ≤ a.toNat + b.toNat + cin.toNat) :
    FollowsRegisterRule i s
      { w := some r, z := some (decide Z), dc := some (decide D), c := some (decide C) } := by
  rw [hr, decide_eq_decide.mpr (hZ.trans (sum8_eq_zero_iff ..).symm), decide_eq_decide.mpr hD,
    decide_eq_decide.mpr hC, ← carry4_eq, ← carry8_eq]
  exact ⟨⟨_, hExec, ((Does.nothing s).withFlags a b cin).withW _⟩, hCycles⟩

end

/-- The borrow is the missing carry of `k + ~W + 1` (conflict C6). -/
theorem sublw_followsRegisterRule (k : Byte) (s : State) :
    FollowsRegisterRule (.sublw k) s
      { w := some (BitVec.ofNat 8 (k.toNat + 256 - s.w.toNat))
        z := some (decide (k = s.w))
        dc := some (decide (s.w.toNat % 16 ≤ k.toNat % 16))
        c := some (decide (s.w.toNat ≤ k.toNat)) } := by
  have hk := k.isLt
  have hw := s.w.isLt
  refine followsRegisterRule_flags (a := k) (b := ~~~s.w) (cin := true) rfl rfl (ofNat_sub_eq_sum8 k s.w)
    ?_ ?_ ?_
  · rw [← BitVec.toNat_inj, not_toNat, Bool.toNat_true]
    omega
  · rw [not_toNat, Bool.toNat_true]
    omega
  · rw [not_toNat, Bool.toNat_true]
    omega

/-! ## The statements -/

/-- Settles O33: bit 8 is a don't-care bit, and the flags are comparisons of the sum, which for SUBLW is
`k + ~W + 1`. -/
theorem addlwAndSublwOnWAndLiteral : Obligations.AddlwAndSublwOnWAndLiteral := by
  refine ⟨fun x k => ?_, fun k s => ?_, fun x k => ?_, sublw_followsRegisterRule⟩
  · have hx : ∀ x : BitVec 1, 0b111110#6 ||| ((0b11111#5 ++ x) &&& 1#6) = 0b11111#5 ++ x := by decide
    exact decode_literalWord rfl rfl (hx x)
  · exact followsRegisterRule_flags (a := s.w) (b := k) (cin := false) rfl rfl (ofNat_add_eq_sum8 s.w k)
      Iff.rfl Iff.rfl Iff.rfl
  · have hx : ∀ x : BitVec 1, 0b111100#6 ||| ((0b11110#5 ++ x) &&& 1#6) = 0b11110#5 ++ x := by decide
    exact decode_literalWord rfl rfl (hx x)

/-- Settles O34, from the bit operations whose result is 0; MOVLW's bits 9 and 8 are don't-care bits. -/
theorem logicAndMoveOnWAndLiteral : Obligations.LogicAndMoveOnWAndLiteral := by
  refine ⟨fun k => decode_encode (.andlw k), fun k s => ?_, fun k => decode_encode (.iorlw k), fun k s => ?_,
    fun k => decode_encode (.xorlw k), fun k s => ?_, fun x k => ?_, fun k s => ?_⟩
  · exact followsRegisterRule_flagZ rfl rfl Iff.rfl
  · exact followsRegisterRule_flagZ rfl rfl BitVec.or_eq_zero_iff.symm
  · exact followsRegisterRule_flagZ rfl rfl (eq_comm.trans BitVec.xor_eq_zero_iff.symm)
  · have hx : ∀ x : BitVec 2, 0b110000#6 ||| ((0b1100#4 ++ x) &&& 3#6) = 0b1100#4 ++ x := by decide
    exact decode_literalWord rfl rfl (hx x)
  · exact ⟨⟨_, rfl, (Does.nothing s).withW k⟩, rfl⟩

end Sys2Proof.Claims
end

section
/-! The control operations (44_control_operations.md R139 to R141, R145, R146) and the end of a run
(70_reset_and_hazards.md R183): what a CPU turn makes of the instruction it fetches, and why a GOTO to
itself is fetched again for ever. -/

namespace Sys2Proof.Machine

open Sys2Proof.Claims

/-! ## The target of GOTO and CALL (R139) -/

theorem branchTarget_eq_ofNat (k : PageAddr) (s : State) :
    branchTarget k s = BitVec.ofNat 13 (2048 * (s.pclath.toNat / 8) + k.toNat) :=
  eq_ofNat_of_toNat_eq (branchTarget_toNat k s)

theorem branchTarget_congr {s t : State} (h : t.pclath = s.pclath) (k : PageAddr) :
    branchTarget k t = branchTarget k s := by
  rw [branchTarget, branchTarget, h]

theorem exec_goto (k : PageAddr) (s : State) :
    exec (.goto k) s = .next (s.setPc (branchTarget k s)) := rfl

theorem exec_call (k : PageAddr) (s : State) :
    exec (.call k) s = andThen (push s.pc s) fun u => .next (u.setPc (branchTarget k u)) := rfl

/-- A CALL whose push answers goes to its target: the push leaves PCLATH. -/
theorem exec_call_of_push {k : PageAddr} {s u : State} (h : push s.pc s = .next u) :
    exec (.call k) s =
      .next (u.setPc (BitVec.ofNat 13 (2048 * (s.pclath.toNat / 8) + k.toNat))) := by
  rw [exec_call, h, andThen_next, branchTarget_congr (push_frame h).pclath, branchTarget_eq_ofNat]

theorem exec_call_overflow {k : PageAddr} {s : State} (hp : s.cfg.stackPolicy = .fault)
    (hl : 8 ≤ s.stack.length) : exec (.call k) s = .fault (.stackOverflow s.pc) := by
  rw [exec_call, push_overflow hp hl, andThen_fault]

/-! ## A CPU turn (00_scope.md R8) -/

/-- The awake CPU's turn at an instruction: run it past its address, then make the interrupt test. -/
theorem step_of_decode {s u : State} {i : Instr} (hTurn : CpuTurn s u) (hAwake : s.asleep = false)
    (hDecode : decode (s.progRead s.pc) = .ok i) :
    step s = andThen (exec i (fetched u)) interruptCheck := by
  rw [step_of_cpuTurn hTurn]
  obtain ⟨rest, rfl⟩ := cpuTurn_setEnv hTurn
  have hFetch : decode ((s.setEnv rest).progRead (s.setEnv rest).pc) = .ok i := hDecode
  rw [cpuStep_awake (s := s.setEnv rest) hAwake, awakeStep, hFetch]
  rfl

theorem interruptCheck_not_taken {s : State} (h : ¬ (s.irq = true ∧ s.gie = true)) :
    interruptCheck s = .next s := by
  refine if_neg fun hTaken => h ?_
  simp only [Bool.and_eq_true] at hTaken
  exact hTaken.1

/-- A CPU turn whose instruction completes at `t` answers `t` where no interrupt is taken. -/
theorem step_of_exec {s u t : State} {i : Instr} (hTurn : CpuTurn s u) (hAwake : s.asleep = false)
    (hDecode : decode (s.progRead s.pc) = .ok i) (hExec : exec i (fetched u) = .next t)
    (hQuiet : ¬ (t.irq = true ∧ t.gie = true)) : step s = .next t := by
  rw [step_of_decode hTurn hAwake hDecode, hExec, andThen_next, interruptCheck_not_taken hQuiet]

/-- A CALL that completes on the CPU's turn is the step's answer unless an interrupt was already
requested and enabled before it. -/
theorem step_of_call {s u t : State} {k : PageAddr} (hTurn : CpuTurn s u) (hAwake : s.asleep = false)
    (hDecode : decode (s.progRead s.pc) = .ok (.call k)) (hExec : exec (.call k) (fetched u) = .next t)
    (hQuiet : ¬ (s.irq = true ∧ s.gie = true)) : step s = .next t := by
  refine step_of_exec hTurn hAwake hDecode hExec ?_
  have hFrame := exec_control hExec rfl
  obtain ⟨rest, rfl⟩ := cpuTurn_setEnv hTurn
  rw [State.gie, hFrame.irq, hFrame.intcon nofun]
  exact hQuiet

/-! ## TO and PD, written together (R145, R146) -/

/-- TO set and PD given, as masks of STATUS: every other bit is kept. -/
theorem setBit_timeOut_powerDown (v : Byte) (b : Bool) :
    setBit (setBit v 4 true) 3 b = (v &&& 0xE7#8) ||| (if b then 0x18#8 else 0x10#8) := by
  refine byte_ext fun j hj => ?_
  rw [getLsbD_setBit, getLsbD_setBit]
  cases b <;> interval_cases j <;> simp

theorem exec_clrwdt (s : State) :
    exec .clrwdt s = .next ((s.setWdt 0).setStatus ((s.status &&& 0xE7#8) ||| 0x18#8)) :=
  congrArg (fun v => Host.Outcome.next ((s.setWdt 0).setStatus v)) (setBit_timeOut_powerDown s.status true)

theorem exec_sleep (s : State) :
    exec .sleep s =
      .next (((s.setWdt 0).setStatus ((s.status &&& 0xE7#8) ||| 0x10#8)).setAsleep true) :=
  congrArg (fun v => Host.Outcome.next (((s.setWdt 0).setStatus v).setAsleep true))
    (setBit_timeOut_powerDown s.status false)

/-! ## The end state (70_reset_and_hazards.md R183) -/

theorem State.irq_of_irqStaysLow {s : State} (h : s.irqStaysLow = true) : s.irq = false := by
  simp_all [State.irqStaysLow]

theorem State.atEnd_iff {s : State} : s.atEnd = true ↔
    s.asleep = false ∧
    (∃ k, decode (s.progRead s.pc) = .ok (.goto k) ∧ branchTarget k s = s.pc) ∧
    (s.gie = false ∨ s.irqStaysLow = true) := by
  rw [State.atEnd]
  split
  · rename_i k hGoto
    simp [hGoto, and_assoc]
  · rename_i hNoGoto
    exact ⟨by simp, fun ⟨_, ⟨k, hGoto, _⟩, _⟩ => absurd hGoto (hNoGoto k)⟩

/-- No interrupt is taken at an end state. -/
theorem State.not_requested_of_atEnd {s : State} (h : s.atEnd = true) :
    ¬ (s.irq = true ∧ s.gie = true) := by
  obtain ⟨-, -, hGie | hLow⟩ := State.atEnd_iff.mp h
  · simp [hGie]
  · simp [State.irq_of_irqStaysLow hLow]

/-- The schedule, the line and the watchdog's count bear on the end state only through IRQ = 0 from then
on, and that every step keeps. -/
theorem State.atEnd_of_step {s : State} {turns : List Turn} {level : Bool} {n : Nat} (h : s.atEnd = true)
    (hStep : step s = .next { s with env := turns, irq := level, wdt := n }) :
    ({ s with env := turns, irq := level, wdt := n } : State).atEnd = true := by
  obtain ⟨hAwake, hGoto, hMasked⟩ := State.atEnd_iff.mp h
  exact State.atEnd_iff.mpr ⟨hAwake, hGoto, hMasked.imp_right fun hLow => step_irqStaysLow hLow hStep⟩

/-- On the CPU's turn the GOTO of an end state brings PC back to itself. -/
theorem step_atEnd_cpu {s u : State} (h : s.atEnd = true) (hTurn : CpuTurn s u) :
    step s = .next (u.setWdt (s.wdt + 1)) ∧ (u.setWdt (s.wdt + 1)).atEnd = true := by
  obtain ⟨hAwake, ⟨k, hDecode, hSelf⟩, -⟩ := State.atEnd_iff.mp h
  obtain ⟨rest, rfl⟩ := cpuTurn_setEnv hTurn
  have hExec : exec (.goto k) (fetched (s.setEnv rest)) = .next ((s.setEnv rest).setWdt (s.wdt + 1)) := by
    have hTarget : branchTarget k (fetched (s.setEnv rest)) = s.pc := hSelf
    rw [exec_goto, hTarget]
    rfl
  have hQuiet := State.not_requested_of_atEnd h
  have hStep := step_of_exec hTurn hAwake hDecode hExec hQuiet
  exact ⟨hStep, State.atEnd_of_step (s := s) h hStep⟩

/-- An event that resets nothing moves the request line at most. -/
theorem applyEvent_of_no_reset {e : EnvEvent} {s : State} (hReset : e ≠ .externalReset)
    (hPower : e ≠ .powerUp) (hTimeout : e = .watchdogTimeout → s.cfg.wdtEnabled = false ∨ s.wdt = 0) :
    ∃ level, applyEvent e s = s.setIrq level := by
  cases e with
  | irqLine level => exact ⟨level, rfl⟩
  | irqSources q => exact ⟨irqOf q, rfl⟩
  | watchdogTimeout => exact ⟨s.irq, watchdogTimeout_none s (hTimeout rfl)⟩
  | externalReset => exact absurd rfl hReset
  | powerUp => exact absurd rfl hPower

/-! ## Any number of steps -/

/-- With only CPU turns to come it is the CPU's turn, and only CPU turns come after it. -/
theorem cpuTurn_of_quietSchedule {s : State} (h : quietSchedule s.env = true) :
    CpuTurn s (s.setEnv (s.env.drop 1)) ∧ quietSchedule (s.env.drop 1) = true := by
  cases hEnv : s.env with
  | nil => exact ⟨.inl ⟨hEnv, by rw [List.drop_nil, ← hEnv]; rfl⟩, rfl⟩
  | cons turn rest =>
    simp only [hEnv, quietSchedule, List.all_cons, Bool.and_eq_true, decide_eq_true_eq] at h
    obtain ⟨rfl, hRest⟩ := h
    exact ⟨.inr ⟨rest, hEnv, rfl⟩, hRest⟩

/-- What one CPU turn keeps while it takes itself off the schedule and counts, any number of them keeps. -/
theorem runSteps_of_cpuTurns {P : State → Prop}
    (hTurns : ∀ s u, P s → CpuTurn s u →
      step s = .next (u.setWdt (s.wdt + 1)) ∧ P (u.setWdt (s.wdt + 1))) (k : Nat) :
    ∀ s, P s → quietSchedule s.env = true →
      runSteps k s = .next ((s.setEnv (s.env.drop k)).setWdt (s.wdt + k)) ∧
      P ((s.setEnv (s.env.drop k)).setWdt (s.wdt + k)) := by
  induction k with
  | zero => exact fun s hP _ => ⟨rfl, hP⟩
  | succ k ih =>
    intro s hP hQuiet
    obtain ⟨hTurn, hRest⟩ := cpuTurn_of_quietSchedule hQuiet
    obtain ⟨hStep, hNext⟩ := hTurns s _ hP hTurn
    rw [runSteps_succ hStep, Nat.add_comm k 1, ← List.drop_drop, ← Nat.add_assoc]
    exact ih _ hNext hRest

theorem runSteps_irqStaysLow (k : Nat) : ∀ {s t : State}, s.irqStaysLow = true →
    runSteps k s = .next t → t.irqStaysLow = true := by
  induction k with
  | zero =>
    intro s t hLow hRun
    obtain rfl : s = t := Host.Outcome.next.inj hRun
    exact hLow
  | succ k ih =>
    intro s t hLow hRun
    obtain ⟨v, hStep, hRest⟩ := andThen_eq_next.mp hRun
    exact ih (step_irqStaysLow hLow hStep) hRest

end Sys2Proof.Machine

namespace Sys2Proof.Claims

open Sys2Proof.Machine

/-- Settles O35, from the number of the branch target and what a push leaves alone. -/
theorem gotoTakesItsPageFromPclath : Obligations.GotoTakesItsPageFromPclath := by
  refine ⟨fun k => decode_encode (.goto k), fun k s => ⟨?_, rfl⟩, fun k s t h => ?_, rfl⟩
  · rw [exec_goto, branchTarget_eq_ofNat]
    rfl
  · obtain ⟨u, hPush, rfl⟩ := execCall_next h
    have hPclath := (push_frame hPush).pclath
    exact ⟨(branchTarget_congr hPclath k).trans (branchTarget_eq_ofNat k s), hPclath⟩

/-- Settles O36, from the push under each policy; the address after 1FFFh is 0000h. -/
theorem callPushesTheAddressAfterIt : Obligations.CallPushesTheAddressAfterIt := by
  refine ⟨fun k => decode_encode (.call k),
    fun _ _ hPolicy hRoom => exec_call_of_push (push_fault_policy hPolicy hRoom),
    fun _ _ hPolicy hFull => exec_call_overflow hPolicy hFull,
    fun _ _ hPolicy => exec_call_of_push (push_wrap_policy hPolicy), fun _ _ => rfl,
    fun s u k hTurn hAwake hPc hDecode => ?_⟩
  rw [← hPc] at hDecode
  obtain ⟨rest, rfl⟩ := cpuTurn_setEnv hTurn
  have hNextPc : (fetched (s.setEnv rest)).pc = 0x0000#13 := congrArg (· + 1#13) hPc
  refine ⟨fun hPolicy hRoom => ?_, fun hPolicy hFull => ?_, fun hPolicy => ?_⟩
  · have hExec := exec_call_of_push (k := k) (s := fetched (s.setEnv rest))
      (push_fault_policy hPolicy hRoom)
    exact ⟨_, ⟨_, hTurn, hAwake, hDecode, hExec⟩, step_of_call hTurn hAwake hDecode hExec,
      congrArg (· :: s.stack) hNextPc, rfl⟩
  · have hExec := exec_call_overflow (k := k) (s := fetched (s.setEnv rest)) hPolicy hFull
    rw [step_of_decode hTurn hAwake hDecode, hExec, andThen_fault, hNextPc]
  · have hExec := exec_call_of_push (k := k) (s := fetched (s.setEnv rest)) (push_wrap_policy hPolicy)
    exact ⟨_, ⟨_, hTurn, hAwake, hDecode, hExec⟩, step_of_call hTurn hAwake hDecode hExec,
      congrArg (ringPush s.ring) hNextPc, rfl⟩

/-- Settles O38, from TO and PD written together as masks of STATUS. -/
theorem clrwdtAndSleepSetTheirStatusBits : Obligations.ClrwdtAndSleepSetTheirStatusBits :=
  ⟨decode_encode .clrwdt, decode_encode .sleep, exec_clrwdt, exec_sleep, fun _ => ⟨rfl, rfl⟩⟩

/-- Settles O46: a GOTO to itself brings PC back, an event that resets nothing moves the request line at
most, and every step keeps IRQ = 0 from then on. -/
theorem endStateRepeatsForever : Obligations.EndStateRepeatsForever := by
  refine ⟨fun _ _ hEnd hTurn => step_atEnd_cpu hEnd hTurn,
    fun s e rest hEnd hEnv hReset hPower hTimeout => ?_,
    fun s k hEnd hQuiet =>
      runSteps_of_cpuTurns (P := fun v => v.atEnd = true) (fun _ _ => step_atEnd_cpu) k s hEnd hQuiet,
    fun _ _ k hLow hRun => State.irq_of_irqStaysLow (runSteps_irqStaysLow k hLow hRun)⟩
  obtain ⟨level, hEvent⟩ := applyEvent_of_no_reset (s := s.setEnv rest) hReset hPower hTimeout
  have hStep : step s = .next ((s.setEnv rest).setIrq level) := by
    rw [step_of_environment hEnv, hEvent]
  exact ⟨_, hStep, State.atEnd_of_step (s := s) hEnd hStep, rfl⟩

end Sys2Proof.Claims
end

section
/-! Interrupt entry (60_exceptions.md R162): a completed instruction leaves the step's answer to the
interrupt test, and the test enters exactly when the request is up, GIE is set and the CPU is awake. -/

namespace Sys2Proof.Machine

open Sys2Proof.Claims

theorem step_of_completes {s t : State} {i : Instr} (h : Completes s i t) :
    step s = interruptCheck t := by
  obtain ⟨u, hTurn, hAwake, hDecode, hExec⟩ := h
  rw [step_of_decode hTurn hAwake hDecode, hExec, andThen_next]

theorem interruptCheck_eq_ite (s : State) :
    interruptCheck s =
      if s.irq = true ∧ s.gie = true ∧ s.asleep = false then takeInterrupt s else .next s := by
  simp only [interruptCheck, Bool.and_eq_true, Bool.not_eq_true', and_assoc]

end Sys2Proof.Machine

namespace Sys2Proof.Claims

open Sys2Proof.Machine

/-- Settles O40: where the test enters, the push decides between the new state and the overflow. -/
theorem interruptEntrySavesPcAndMasks : Obligations.InterruptEntrySavesPcAndMasks := by
  intro s i t hDone
  rw [step_of_completes hDone, interruptCheck_eq_ite]
  refine ⟨fun hIrq hGie hAwake => ?_, fun hNoEntry => if_neg hNoEntry⟩
  rw [if_pos ⟨hIrq, hGie, hAwake⟩]
  exact ⟨takeInterrupt_fault_policy, takeInterrupt_overflow, takeInterrupt_wrap_policy⟩

end Sys2Proof.Claims
end

section
/-! The computed jump (70_reset_and_hazards.md R186): ADDWF adds W to the low byte of the next address,
and the store to PCL takes PCLATH along, so that the carry reaches C and not PCH. -/

namespace Sys2Proof.Claims

open Sys2Proof.Machine

/-- The low byte read from PCL while the instruction fetched at `p` runs (R8, R12). -/
theorem lowByte_next_toNat (p : Pc) :
    ((p + 1#13).extractLsb' 0 8).toNat = (p.toNat + 1) % 256 := by
  rw [BitVec.extractLsb'_toNat, BitVec.toNat_add, Nat.shiftRight_zero]
  exact Nat.mod_mod_of_dvd _ (by decide)

/-- ADDWF with PCL as operand and destination: PC and C are those of the rule ADDWF follows. -/
theorem exec_addwf_pcl {f : FileField} {s : State} (h : fileTarget f s = .pcl) :
    ∃ t, exec (.addwf f .f) s = .next t ∧
      t.pc.toNat = 256 * s.pclath.toNat + (s.w.toNat + (s.pc.extractLsb' 0 8).toNat) % 256 ∧
      (t.carry = true ↔ 256 ≤ s.w.toNat + (s.pc.extractLsb' 0 8).toNat) := by
  obtain ⟨-, hRule⟩ := addwfAddsWAndFileRegister
  have hMapped : Mapped f s := by simp [Mapped, h]
  obtain ⟨⟨t, hExec, hDoes⟩, -⟩ := (hRule f .f s).2 hMapped
  rw [h] at hDoes
  refine ⟨t, hExec, ?_, ?_⟩
  · have hPc : t.pc = s.pclath ++ BitVec.ofNat 8 (s.w.toNat + (s.pc.extractLsb' 0 8).toNat) :=
      hDoes.pc.trans (BitVec.add_zero _)
    rw [hPc, pclLoad_toNat, BitVec.toNat_ofNat]
  · rw [hDoes.carry]
    exact decide_eq_true_iff

/-- Settles O47: the byte added to is the low byte of the next address, and the byte stored is the sum
modulo 256. -/
theorem computedJumpAddsWithinPcl : Obligations.ComputedJumpAddsWithinPcl := by
  intro s u f hTurn hAwake hDecode hPcl
  obtain ⟨rest, rfl⟩ := cpuTurn_setEnv hTurn
  have hTarget : fileTarget f (fetched (s.setEnv rest)) = .pcl := hPcl
  obtain ⟨t, hExec, hPc, hCarry⟩ := exec_addwf_pcl hTarget
  have hLow : ((fetched (s.setEnv rest)).pc.extractLsb' 0 8).toNat = (s.pc.toNat + 1) % 256 :=
    lowByte_next_toNat s.pc
  have hW : (fetched (s.setEnv rest)).w = s.w := rfl
  have hPclath : (fetched (s.setEnv rest)).pclath = s.pclath := rfl
  rw [hLow, hW, add_comm] at hCarry
  rw [hLow, hW, hPclath, add_comm s.w.toNat, Nat.mod_add_mod] at hPc
  exact ⟨t, ⟨_, hTurn, hAwake, hDecode, hExec⟩, hPc, hCarry⟩

end Sys2Proof.Claims
end

section
/-! The decoder against the opcode table (30_encoding.md R64, R66): a row's mask leaves the don't-care bits
out, the 35 rows exclude one another, and no unassigned word meets one. -/

namespace Sys2Proof

open Sys2Proof.Claims

/-! ## A decoded word meets its instruction's row -/

theorem encode_meets_row (i : Instr) : i.row.holds (encode i) = true := by
  cases i with
  | addwf f d => exact Laws.TableRow.addwf f d
  | andwf f d => exact Laws.TableRow.andwf f d
  | clrf f => exact Laws.TableRow.clrf f
  | clrw => exact Laws.TableRow.clrw
  | comf f d => exact Laws.TableRow.comf f d
  | decf f d => exact Laws.TableRow.decf f d
  | decfsz f d => exact Laws.TableRow.decfsz f d
  | incf f d => exact Laws.TableRow.incf f d
  | incfsz f d => exact Laws.TableRow.incfsz f d
  | iorwf f d => exact Laws.TableRow.iorwf f d
  | movf f d => exact Laws.TableRow.movf f d
  | movwf f => exact Laws.TableRow.movwf f
  | nop => exact Laws.TableRow.nop
  | rlf f d => exact Laws.TableRow.rlf f d
  | rrf f d => exact Laws.TableRow.rrf f d
  | subwf f d => exact Laws.TableRow.subwf f d
  | swapf f d => exact Laws.TableRow.swapf f d
  | xorwf f d => exact Laws.TableRow.xorwf f d
  | bcf f b => exact Laws.TableRow.bcf f b
  | bsf f b => exact Laws.TableRow.bsf f b
  | btfsc f b => exact Laws.TableRow.btfsc f b
  | btfss f b => exact Laws.TableRow.btfss f b
  | addlw k => exact Laws.TableRow.addlw k
  | andlw k => exact Laws.TableRow.andlw k
  | call k => exact Laws.TableRow.call k
  | clrwdt => exact Laws.TableRow.clrwdt
  | goto k => exact Laws.TableRow.goto k
  | iorlw k => exact Laws.TableRow.iorlw k
  | movlw k => exact Laws.TableRow.movlw k
  | retfie => exact Laws.TableRow.retfie
  | retlw k => exact Laws.TableRow.retlw k
  | ret => exact Laws.TableRow.ret
  | sleep => exact Laws.TableRow.sleep
  | sublw k => exact Laws.TableRow.sublw k
  | xorlw k => exact Laws.TableRow.xorlw k

/-- No don't-care bit stands under the mask. -/
theorem not_dontCares_and_mask (i : Instr) : ~~~(dontCares i) &&& i.row.mask = i.row.mask := by
  cases i <;> rw [dontCares, Instr.row] <;> decide

theorem row_holds_of_decode {w : CodeWord} {i : Instr} (h : decode w = .ok i) : i.row.holds w = true := by
  have hEncoded := encode_meets_row i
  rwa [encode_of_decode h, OpcodeRow.holds, BitVec.and_assoc, not_dontCares_and_mask] at hEncoded

/-! ## The rows exclude one another -/

/-- The 35 rows of R64. -/
def opcodeRows : List OpcodeRow :=
  [⟨0x0700#14, 0x3F00#14⟩, ⟨0x0500#14, 0x3F00#14⟩, ⟨0x0180#14, 0x3F80#14⟩, ⟨0x0100#14, 0x3F80#14⟩,
    ⟨0x0900#14, 0x3F00#14⟩, ⟨0x0300#14, 0x3F00#14⟩, ⟨0x0B00#14, 0x3F00#14⟩, ⟨0x0A00#14, 0x3F00#14⟩,
    ⟨0x0F00#14, 0x3F00#14⟩, ⟨0x0400#14, 0x3F00#14⟩, ⟨0x0800#14, 0x3F00#14⟩, ⟨0x0080#14, 0x3F80#14⟩,
    ⟨0x0000#14, 0x3F9F#14⟩, ⟨0x0D00#14, 0x3F00#14⟩, ⟨0x0C00#14, 0x3F00#14⟩, ⟨0x0200#14, 0x3F00#14⟩,
    ⟨0x0E00#14, 0x3F00#14⟩, ⟨0x0600#14, 0x3F00#14⟩, ⟨0x1000#14, 0x3C00#14⟩, ⟨0x1400#14, 0x3C00#14⟩,
    ⟨0x1800#14, 0x3C00#14⟩, ⟨0x1C00#14, 0x3C00#14⟩, ⟨0x3E00#14, 0x3E00#14⟩, ⟨0x3900#14, 0x3F00#14⟩,
    ⟨0x2000#14, 0x3800#14⟩, ⟨0x0064#14, 0x3FFF#14⟩, ⟨0x2800#14, 0x3800#14⟩, ⟨0x3800#14, 0x3F00#14⟩,
    ⟨0x3000#14, 0x3C00#14⟩, ⟨0x0009#14, 0x3FFF#14⟩, ⟨0x3400#14, 0x3C00#14⟩, ⟨0x0008#14, 0x3FFF#14⟩,
    ⟨0x0063#14, 0x3FFF#14⟩, ⟨0x3C00#14, 0x3E00#14⟩, ⟨0x3A00#14, 0x3F00#14⟩]

theorem row_mem_opcodeRows (i : Instr) : i.row ∈ opcodeRows := by
  cases i <;> simp [Instr.row, opcodeRows]

/-- Two rows one word can meet agree where both masks look. -/
theorem patterns_agree {r q : OpcodeRow} {w : CodeWord} (hr : r.holds w = true) (hq : q.holds w = true) :
    r.pattern &&& q.mask = q.pattern &&& r.mask := by
  rw [← beq_iff_eq.mp hr, ← beq_iff_eq.mp hq, BitVec.and_assoc, BitVec.and_assoc, BitVec.and_comm r.mask]

theorem opcodeRows_exclusive : ∀ r ∈ opcodeRows, ∀ q ∈ opcodeRows,
    r.pattern &&& q.mask = q.pattern &&& r.mask → r = q := by
  decide

/-! ## The unassigned words meet no row (R68) -/

theorem unassignedLiteral_exclusive : ∀ r ∈ opcodeRows,
    r.pattern &&& 0x3F00#14 ≠ 0x3B00#14 &&& r.mask := by
  decide

/-- Below 80h only the five constants have their words. -/
def constantRows : List OpcodeRow :=
  [⟨0x0000#14, 0x3F9F#14⟩, ⟨0x0008#14, 0x3FFF#14⟩, ⟨0x0009#14, 0x3FFF#14⟩, ⟨0x0063#14, 0x3FFF#14⟩,
    ⟨0x0064#14, 0x3FFF#14⟩]

theorem mem_constantRows : ∀ r ∈ opcodeRows, r.pattern &&& 0x3F80#14 = 0x0000#14 &&& r.mask →
    r ∈ constantRows := by
  decide

theorem constantRows_words : ∀ x : BitVec 7, ∀ r ∈ constantRows, r.holds (0#7 ++ x) = true →
    x.toNat ∈ [0x00, 0x20, 0x40, 0x60, 0x08, 0x09, 0x63, 0x64] := by
  decide

theorem opcode_zero_of_below_80h {w : CodeWord} (h : w.toNat < 0x80) : w.extractLsb' 7 7 = 0#7 := by
  obtain ⟨hGroup, hNibble, hBit⟩ := below_80h_iff.mp h
  exact opcode_of_group_nibble_bit7 hGroup hNibble hBit

/-- A word below 80h that meets a row is the word of a constant. -/
theorem constant_of_row_holds {w : CodeWord} {i : Instr} (hLow : w.toNat < 0x80)
    (h : i.row.holds w = true) : w.toNat ∈ [0x00, 0x20, 0x40, 0x60, 0x08, 0x09, 0x63, 0x64] := by
  have hWord : 0#7 ++ fieldF w = w := by rw [← opcode_zero_of_below_80h hLow, fileWord_fields]
  have hBlock : (⟨0x0000#14, 0x3F80#14⟩ : OpcodeRow).holds w = true := by
    rw [← hWord]
    exact beq_iff_eq.mpr (Laws.TableRow.mask_fileWord 0#7 (fieldF w))
  have hConstant := mem_constantRows i.row (row_mem_opcodeRows i) (patterns_agree h hBlock)
  rw [← hWord] at h
  have hNumber := constantRows_words (fieldF w) i.row hConstant h
  rwa [fieldF_toNat, Nat.mod_eq_of_lt hLow] at hNumber

/-- A word from 3B00h to 3BFFh meets no row: it meets the mask and match of that block. -/
theorem not_row_holds_of_literalBlock {w : CodeWord} (h : 0x3B00 ≤ w.toNat ∧ w.toNat ≤ 0x3BFF) (i : Instr) :
    ¬ i.row.holds w = true := by
  obtain ⟨hGroup, hNibble⟩ := from_3B00h_to_3BFFh_iff.mp h
  have hBlock : (⟨0x3B00#14, 0x3F00#14⟩ : OpcodeRow).holds w = true := by
    rw [OpcodeRow.holds, beq_iff_eq, word_split w, opcode_of_group_nibble hGroup hNibble]
    exact Laws.TableRow.mask_literalWord _ 0b111111#6 _
  exact fun hRow =>
    unassignedLiteral_exclusive i.row (row_mem_opcodeRows i) (patterns_agree hRow hBlock)

theorem not_row_holds_of_unassigned {w : CodeWord} (h : Unassigned w) (i : Instr) :
    ¬ i.row.holds w = true := by
  rcases h with ⟨hLow, hOther⟩ | hLiteral
  · exact fun hRow => hOther (constant_of_row_holds hLow hRow)
  · exact not_row_holds_of_literalBlock hLiteral i

/-- A word that meets a row decodes, since it is not unassigned, and to an instruction of that row, since
it meets no other. -/
theorem decode_of_row_holds {w : CodeWord} {i : Instr} (h : i.row.holds w = true) :
    ∃ j, decode w = .ok j ∧ j.row = i.row := by
  cases hDecode : decode w with
  | error r =>
    exact absurd h (not_row_holds_of_unassigned (decode_error_iff_unassigned.mp ⟨r, hDecode⟩) i)
  | ok j =>
    exact ⟨j, rfl, opcodeRows_exclusive _ (row_mem_opcodeRows j) _ (row_mem_opcodeRows i)
      (patterns_agree (row_holds_of_decode hDecode) h)⟩

end Sys2Proof

namespace Sys2Proof.Claims

/-- Settles O2: the case of the don't-care bits all 0. -/
theorem decodeInvertsEncode : Obligations.DecodeInvertsEncode := decode_encode

/-- Settles O4: the words that decode are the assigned ones, and the rows exclude one another. -/
theorem decoderAgreesWithTheOpcodeTable : Obligations.DecoderAgreesWithTheOpcodeTable :=
  ⟨fun _ _ h => row_holds_of_decode h, fun _ _ h => decode_of_row_holds h⟩

/-- Settles O1: each is one word run through the decode tree. -/
theorem sourceListingDecodes : Obligations.SourceListingDecodes := by
  unfold Obligations.SourceListingDecodes
  decide

end Sys2Proof.Claims
end

section
/-! What every step keeps (10_state.md sections 4, 7, 9; 20_memory.md sections 1, 5): the well-formedness of
the state, the code image and the configuration. -/

namespace Sys2Proof.Machine

/-! ## Well-formedness -/

/-- Well-formedness is a matter of the two memories, the stack and the configuration. -/
theorem State.Wf.of_same {s t : State} (h : s.Wf) (hData : t.data = s.data) (hCode : t.code = s.code)
    (hStack : t.stack = s.stack) (hCfg : t.cfg = s.cfg) : t.Wf :=
  h.of_eq (by rw [hData]; exact h.data) hCode (by rw [hStack]; exact h.stack) hCfg

section
variable {s t : State}

/-- The shape of R100 keeps well-formedness if what comes last does. -/
theorem fileOp_wf {f : FileField} {d : Dest} {result : Byte → Byte} {last : Byte → State → State}
    (h : fileOp f d result last s = .next t) (hs : s.Wf) (hLast : ∀ v u, u.Wf → (last v u).Wf) : t.Wf := by
  obtain ⟨-, rfl⟩ := fileOp_next h
  exact hLast _ _ (delivered_wf (afterRead_wf hs _) _ _ _)

theorem fileTest_wf {f : FileField} {skips : Byte → Bool} (h : fileTest f skips s = .next t) (hs : s.Wf) :
    t.Wf := by
  obtain ⟨-, rfl⟩ := fileTest_next h
  exact (afterRead_wf hs _).of_same rfl rfl rfl rfl

theorem fileWrite_wf {f : FileField} {v : Byte} (h : fileWrite f v s = .next t) (hs : s.Wf) : t.Wf := by
  obtain ⟨-, rfl⟩ := fileWrite_next h
  exact stored_wf hs _ _

theorem popPc_wf (h : popPc s = .next t) (hs : s.Wf) : t.Wf := by
  obtain ⟨r, hPop, rfl⟩ := popPc_next h
  exact (pop_wf hs hPop).of_same rfl rfl rfl rfl

theorem exec_wf {i : Instr} (h : exec i s = .next t) (hs : s.Wf) : t.Wf := by
  cases i with
  | addwf f d | andwf f d | comf f d | decf f d | decfsz f d | incf f d | incfsz f d | iorwf f d | movf f d
  | rlf f d | rrf f d | subwf f d | swapf f d | xorwf f d | bcf f b | bsf f b =>
    simp only [exec, execAddwf, execAndwf, execComf, execDecf, execDecfsz, execIncf, execIncfsz, execIorwf,
      execMovf, execRlf, execRrf, execSubwf, execSwapf, execXorwf, execBcf, execBsf] at h
    exact fileOp_wf h hs fun _ _ hu => hu.of_same rfl rfl rfl rfl
  | btfsc f b | btfss f b =>
    simp only [exec, execBtfsc, execBtfss] at h
    exact fileTest_wf h hs
  | movwf f => exact fileWrite_wf h hs
  | clrf f =>
    obtain ⟨u, hWrite, ht⟩ := andThen_eq_next.mp h
    obtain rfl := Host.Outcome.next.inj ht
    exact (fileWrite_wf hWrite hs).of_same rfl rfl rfl rfl
  | clrw | nop | addlw k | andlw k | iorlw k | movlw k | sublw k | xorlw k | goto k | clrwdt | sleep =>
    obtain rfl := Host.Outcome.next.inj h
    exact hs.of_same rfl rfl rfl rfl
  | call k =>
    obtain ⟨u, hPush, rfl⟩ := execCall_next h
    exact (push_wf hs hPush).of_same rfl rfl rfl rfl
  | ret => exact popPc_wf h hs
  | retlw k => exact popPc_wf h (hs.of_same rfl rfl rfl rfl)
  | retfie =>
    obtain ⟨r, hPop, rfl⟩ := execRetfie_next h
    exact (pop_wf hs hPop).of_same rfl rfl rfl rfl

theorem interruptCheck_wf (h : interruptCheck s = .next t) (hs : s.Wf) : t.Wf := by
  rcases interruptCheck_next h with rfl | ⟨-, -, -, hEntry⟩
  · exact hs
  · obtain ⟨u, hPush, rfl⟩ := takeInterrupt_next hEntry
    have hMasked : (s.setGie false).Wf := hs.of_same rfl rfl rfl rfl
    exact (push_wf hMasked hPush).of_same rfl rfl rfl rfl

theorem cpuStep_wf (h : cpuStep s = .next t) (hs : s.Wf) : t.Wf := by
  rcases cpuStep_next h with ⟨-, rfl⟩ | ⟨-, i, u, -, hExec, hCheck⟩
  · exact hs.of_same rfl rfl rfl rfl
  · have hFetched : (advance s).Wf := hs.of_same rfl rfl rfl rfl
    exact interruptCheck_wf hCheck (exec_wf hExec hFetched)

/-- A reset empties the stack; what it leaves of RAM is what was there, or nothing after a power-up. -/
theorem applyEvent_wf (e : EnvEvent) (hs : s.Wf) : (applyEvent e s).Wf := by
  have hEmpty : ([] : List Pc).length ≤ 8 := Nat.zero_le 8
  cases e with
  | irqLine level => exact hs.of_same rfl rfl rfl rfl
  | irqSources q => exact hs.of_same rfl rfl rfl rfl
  | watchdogTimeout =>
    rcases watchdogTimeout_cases s with hNone | hReset | hWake
    · rwa [applyEvent, hNone]
    · rw [applyEvent, hReset]
      exact hs.of_eq hs.data rfl hEmpty rfl
    · rw [applyEvent, hWake]
      exact hs.of_same rfl rfl rfl rfl
  | externalReset => exact hs.of_eq hs.data rfl hEmpty rfl
  | powerUp => exact hs.of_eq rfl rfl hEmpty rfl

theorem step_wf (h : step s = .next t) (hs : s.Wf) : t.Wf := by
  rcases step_next h with ⟨rest, -, hCpu⟩ | ⟨e, rest, -, rfl⟩
  · have hTurn : (s.setEnv rest).Wf := hs.of_same rfl rfl rfl rfl
    exact cpuStep_wf hCpu hTurn
  · have hTurn : (s.setEnv rest).Wf := hs.of_same rfl rfl rfl rfl
    exact applyEvent_wf e hTurn

/-! ## The code image and the configuration -/

theorem exec_code_cfg {i : Instr} (h : exec i s = .next t) : t.code = s.code ∧ t.cfg = s.cfg := by
  cases hControl : isControl i with
  | true => exact ⟨(exec_control h hControl).code, (exec_control h hControl).cfg⟩
  | false =>
    obtain ⟨x, hDoes, -⟩ := exec_does h hControl
    exact ⟨hDoes.code, hDoes.cfg⟩

theorem interruptCheck_code_cfg (h : interruptCheck s = .next t) : t.code = s.code ∧ t.cfg = s.cfg := by
  rcases interruptCheck_next h with rfl | ⟨-, -, -, hEntry⟩
  · exact ⟨rfl, rfl⟩
  · obtain ⟨u, hPush, rfl⟩ := takeInterrupt_next hEntry
    exact ⟨(push_frame hPush).code, (push_frame hPush).cfg⟩

theorem cpuStep_code_cfg (h : cpuStep s = .next t) : t.code = s.code ∧ t.cfg = s.cfg := by
  rcases cpuStep_next h with ⟨-, rfl⟩ | ⟨-, i, u, -, hExec, hCheck⟩
  · exact ⟨rfl, rfl⟩
  · obtain ⟨hCode, hCfg⟩ := exec_code_cfg hExec
    obtain ⟨hCode', hCfg'⟩ := interruptCheck_code_cfg hCheck
    exact ⟨hCode'.trans hCode, hCfg'.trans hCfg⟩

theorem applyEvent_code_cfg (e : EnvEvent) (s : State) :
    (applyEvent e s).code = s.code ∧ (applyEvent e s).cfg = s.cfg := by
  cases e with
  | watchdogTimeout => rcases watchdogTimeout_cases s with h | h | h <;> simp [applyEvent, h]
  | _ => exact ⟨rfl, rfl⟩

theorem step_code_cfg (h : step s = .next t) : t.code = s.code ∧ t.cfg = s.cfg := by
  rcases step_next h with ⟨rest, -, hCpu⟩ | ⟨e, rest, -, rfl⟩
  · exact cpuStep_code_cfg (s := s.setEnv rest) hCpu
  · exact applyEvent_code_cfg e (s.setEnv rest)

end

end Sys2Proof.Machine

namespace Sys2Proof.Claims

open Sys2Proof.Machine

/-- Settles O8, from what each instruction, the interrupt test and each event keep. -/
theorem stepKeepsWellFormedness : Obligations.StepKeepsWellFormedness :=
  fun _ _ hWf hStep => step_wf hStep hWf

/-- Settles O9: fetch reads the code image through the configuration, and a step keeps both. -/
theorem codeAndConfigurationNeverChange : Obligations.CodeAndConfigurationNeverChange := by
  intro s t hStep
  obtain ⟨hCode, hCfg⟩ := step_code_cfg hStep
  exact ⟨hCode, hCfg, State.progRead_congr hCode hCfg⟩

/-- Settles O6, field by field. -/
theorem powerUpStateOfTheSpec : Obligations.PowerUpStateOfTheSpec := by
  unfold Obligations.PowerUpStateOfTheSpec
  decide

/-- Settles O7: the memories and the stack are empty, the configuration is the default one. -/
theorem wellFormedAtReset : Obligations.WellFormedAtReset :=
  ⟨State.reset_data_wf, by decide, by decide, by decide⟩

end Sys2Proof.Claims
end

section
/-! The data space under an admissible configuration (20_memory.md R44, R45): an access is a read or a store
of its target, and the target is the dispatch on the offset in the bank. -/

namespace Sys2Proof.Machine

/-! ## Parts of registers as numbers -/

theorem lowByte_eq_ofNat (p : Pc) : p.extractLsb' 0 8 = BitVec.ofNat 8 p.toNat := by
  rw [BitVec.extractLsb', Nat.shiftRight_zero]

theorem pclLoad_eq_ofNat (p : BitVec 5) (v : Byte) :
    p ++ v = BitVec.ofNat 13 (256 * p.toNat + v.toNat) :=
  eq_ofNat_of_toNat_eq (pclLoad_toNat p v)

theorem pclathLoad_eq_ofNat (v : Byte) : v.extractLsb' 0 5 = BitVec.ofNat 5 (v.toNat % 32) := by
  apply BitVec.eq_of_toNat_eq
  rw [BitVec.extractLsb'_toNat, BitVec.toNat_ofNat, Nat.shiftRight_zero]
  exact (Nat.mod_mod _ 32).symm

/-! ## An access by its target -/

section
variable {a : DataAddr} {s : State} {u : FileTarget}

theorem dataRead_of_target_eq (h : target a s = u) : dataRead a s = readTarget u s := by
  rw [dataRead, h]

theorem dataWrite_of_target_eq (h : target a s = u) (v : Byte) : dataWrite a v s = writeTarget u v s := by
  rw [dataWrite, h]

theorem dataRead_pcl (h : target a s = .pcl) : dataRead a s = .next (BitVec.ofNat 8 s.pc.toNat, s) := by
  rw [dataRead_of_target_eq h, readTarget, lowByte_eq_ofNat]

theorem dataRead_pclath (h : target a s = .pclath) :
    dataRead a s = .next (BitVec.ofNat 8 s.pclath.toNat, s) := by
  rw [dataRead_of_target_eq h, readTarget, BitVec.ofNat_toNat]

/-- Off the core registers a read answers what the file map says. -/
theorem dataRead_mapped (h : bankOffset a ∉ s.cfg.coreOffsets) :
    dataRead a s =
      match fileMapEntry s.cfg.fileMap a.toNat with
      | .ram c => .next (s.ramByte c, s)
      | .device g => .next (Config.freeByte s.draws,
          { s with draws := s.draws + 1, deviceLog := .read g (Config.freeByte s.draws) :: s.deviceLog })
      | .unimplemented => .fault (.unmappedFile a) := by
  obtain ⟨hRam, hDevice, hUnimplemented⟩ := target_mapped h
  cases hEntry : fileMapEntry s.cfg.fileMap a.toNat with
  | ram c => exact dataRead_of_target_eq (hRam c hEntry)
  | device g => exact dataRead_of_target_eq (hDevice g hEntry)
  | unimplemented => exact dataRead_of_target_eq (hUnimplemented hEntry)

/-- A store to PCL takes PCLATH along (10_state.md R13). -/
theorem dataWrite_pcl (h : target a s = .pcl) (v : Byte) :
    dataWrite a v s = .next { s with pc := BitVec.ofNat 13 (256 * s.pclath.toNat + v.toNat) } := by
  rw [dataWrite_of_target_eq h, ← pclLoad_eq_ofNat]
  rfl

theorem dataWrite_pclath (h : target a s = .pclath) (v : Byte) :
    dataWrite a v s = .next { s with pclath := BitVec.ofNat 5 (v.toNat % 32) } := by
  rw [dataWrite_of_target_eq h, ← pclathLoad_eq_ofNat]
  rfl

/-- A write of a RAM cell changes the reading of that cell alone. -/
theorem dataWrite_ram {c : Nat} (h : target a s = .ram c) (v : Byte) :
    ∃ m, dataWrite a v s = .next { s with data := m } ∧
      ∀ c', ({ s with data := m } : State).ramByte c' = if c' = c then v else s.ramByte c' :=
  ⟨_, dataWrite_of_target_eq h v, fun c' => State.ramByte_writeRam s c c' v⟩

/-- Off the core registers a write reaches what the file map says. -/
theorem dataWrite_mapped (h : bankOffset a ∉ s.cfg.coreOffsets) (v : Byte) :
    match fileMapEntry s.cfg.fileMap a.toNat with
    | .ram c => ∃ m, dataWrite a v s = .next { s with data := m } ∧
        ∀ c', ({ s with data := m } : State).ramByte c' = if c' = c then v else s.ramByte c'
    | .device g => dataWrite a v s = .next { s with deviceLog := .write g v :: s.deviceLog }
    | .unimplemented => dataWrite a v s = .fault (.unmappedFile a) := by
  obtain ⟨hRam, hDevice, hUnimplemented⟩ := target_mapped h
  cases hEntry : fileMapEntry s.cfg.fileMap a.toNat with
  | ram c => exact dataWrite_ram (hRam c hEntry) v
  | device g => exact dataWrite_of_target_eq (hDevice g hEntry) v
  | unimplemented => exact dataWrite_of_target_eq (hUnimplemented hEntry) v

end

end Sys2Proof.Machine

namespace Sys2Proof.Claims

open Sys2Proof.Machine

/-- Settles O13, from the target of each offset. -/
theorem dataReadFindsTheCoreRegistersInEveryBank :
    Obligations.DataReadFindsTheCoreRegistersInEveryBank :=
  fun _ _ hCfg =>
    ⟨fun ha => dataRead_pcl (target_pcl hCfg ha),
      fun ha => dataRead_of_target_eq (target_status hCfg ha),
      fun ha => dataRead_of_target_eq (target_fsr hCfg ha),
      fun ha => dataRead_pclath (target_pclath hCfg ha),
      fun ha => dataRead_of_target_eq (target_intcon hCfg ha),
      fun ha => dataRead_mapped ha⟩

/-- Settles O14, from the target of each offset and what a store to it changes. -/
theorem dataWriteReachesTheCoreRegistersInEveryBank :
    Obligations.DataWriteReachesTheCoreRegistersInEveryBank :=
  fun _ v s hCfg =>
    ⟨fun ha => dataWrite_pcl (target_pcl hCfg ha) v,
      fun ha => ⟨_, dataWrite_of_target_eq (target_status hCfg ha) v, getLsbD_writeStatus s v⟩,
      fun ha => dataWrite_of_target_eq (target_fsr hCfg ha) v,
      fun ha => dataWrite_pclath (target_pclath hCfg ha) v,
      fun ha => dataWrite_of_target_eq (target_intcon hCfg ha) v,
      fun ha => dataWrite_mapped ha v⟩

end Sys2Proof.Claims
end

section
/-! The instructions that skip on a zero result, and PCL as operand and destination (10_state.md R12, R13;
41_byte_oriented.md R109, R111): each effect is read off the rule the instruction follows. -/

namespace Sys2Proof.Claims

open Sys2Proof.Machine

/-! ## The skip on a zero result -/

/-- The shape of R100 that ends in a skip, with the skip and the result said in words other than the
model's. -/
theorem followsFileRule_skip {i : Instr} {f : FileField} {d : Dest} {s : State} {result r : Byte → Byte}
    {K : Byte → Prop} [∀ v, Decidable (K v)]
    (hCycles : cycles i s = cyclesOfSkip (result (peekFile f s) == 0#8)) (hr : ∀ v, r v = result v)
    (hExec : exec i s = fileOp f d result (fun v => skipIf (result v == 0#8)) s)
    (hK : ∀ v, K v ↔ result v = 0#8) :
    FollowsFileRule i f (some d) s fun v => { result := r v, skip := some (decide (K v)) } := by
  obtain rfl : r = result := funext hr
  have hSkip : ∀ v, (r v == 0#8) = decide (K v) := fun v => by
    rw [decide_eq_decide.mpr (hK v)]
    rfl
  refine followsFileRule_of_fileOp hExec ?_ fun _ h => ?_
  · rw [hCycles, peekFile_eq_valueAt, hSkip]
    rfl
  · rw [← hSkip]
    exact (fileOp_skip h :)

/-- Settles O26: the one byte that decrements to 0 is 01h, the one that increments to 0 is FFh. -/
theorem decfszAndIncfszSkipOnAZeroResult : Obligations.DecfszAndIncfszSkipOnAZeroResult := by
  refine ⟨fun _ _ => decode_byteWord rfl, fun f d s => ?_, fun _ _ => decode_byteWord rfl, fun f d s => ?_⟩
  · exact followsFileRule_skip (result := fun v => v - 1#8) rfl ofNat_decrement rfl fun _ => sub_eq_zero.symm
  · exact followsFileRule_skip (result := fun v => v + 1#8) rfl ofNat_increment rfl
      fun v => eq_neg_iff_add_eq_zero (a := v) (b := 1#8)

/-! ## A result stored to PCL (10_state.md R13) -/

/-- `i` completes, keeps PCLATH, and loads PC with PCLATH and its result, passing over one more word where
it skips. -/
def LoadsPcl (i : Instr) (s : State) : Prop :=
  ∃ t, exec i s = .next t ∧ t.pclath = s.pclath ∧
    (skipsOnZero i ∧ fileResult i s = 0#8 →
      t.pc = BitVec.ofNat 13 (256 * s.pclath.toNat + (fileResult i s).toNat) + 1#13) ∧
    (¬ (skipsOnZero i ∧ fileResult i s = 0#8) →
      t.pc = BitVec.ofNat 13 (256 * s.pclath.toNat + (fileResult i s).toNat))

section
variable {i : Instr} {f : FileField} {s : State}

theorem mapped_of_pcl (h : fileTarget f s = .pcl) : Mapped f s := by
  simp [Mapped, h]

/-- A change that stores the instruction's result to PCL, and skips exactly where it must. -/
theorem loadsPcl_of_does {x : Change} {t : State} (hExec : exec i s = .next t) (hDoes : Does x s t)
    (hStore : x.store = some (.pcl, fileResult i s))
    (hSkip : x.skip = true ↔ skipsOnZero i ∧ fileResult i s = 0#8) : LoadsPcl i s := by
  have hPc := hDoes.pc
  have hPclath := hDoes.pclath
  simp only [Change.storedTo, hStore, if_true, Option.elim, reduceCtorEq, if_false] at hPc hPclath
  rw [pclLoad_eq_ofNat] at hPc
  refine ⟨t, hExec, hPclath, fun hZero => ?_, fun hNot => ?_⟩
  · rw [hPc, if_pos (hSkip.mpr hZero)]
  · rw [hPc, if_neg (mt hSkip.mp hNot), BitVec.add_zero]

theorem loadsPcl_of_fileRule {rule : Byte → FileRule} (h : FollowsFileRule i f (some .f) s rule)
    (hPcl : fileTarget f s = .pcl) (hResult : (rule (valueAt (fileTarget f s) s)).result = fileResult i s)
    (hSkip : (rule (valueAt (fileTarget f s) s)).skip.getD false = true ↔
      skipsOnZero i ∧ fileResult i s = 0#8) : LoadsPcl i s := by
  obtain ⟨⟨t, hExec, hDoes⟩, -⟩ := h.2 (mapped_of_pcl hPcl)
  exact loadsPcl_of_does hExec hDoes (by rw [if_pos rfl, hPcl, ← hResult, hPcl]) hSkip

theorem loadsPcl_of_writeRule {v : Byte} {z : Option Bool} (h : FollowsWriteRule i f s v z)
    (hPcl : fileTarget f s = .pcl) (hResult : v = fileResult i s) (hNever : ¬ skipsOnZero i) :
    LoadsPcl i s := by
  obtain ⟨⟨t, hExec, hDoes⟩, -⟩ := h.2 (mapped_of_pcl hPcl)
  exact loadsPcl_of_does hExec hDoes (by rw [hPcl, hResult]) (by simp [hNever])

/-- The store of an instruction that never skips. -/
theorem loadsPcl_of_plainRule {rule : Byte → FileRule} (h : FollowsFileRule i f (some .f) s rule)
    (hPcl : fileTarget f s = .pcl) (hResult : (rule (valueAt (fileTarget f s) s)).result = fileResult i s)
    (hPlain : (rule (valueAt (fileTarget f s) s)).skip = none) (hNever : ¬ skipsOnZero i) :
    LoadsPcl i s :=
  loadsPcl_of_fileRule h hPcl hResult (by simp [hPlain, hNever])

end

theorem storeIf_eq_some {d : Dest} {u v : FileTarget} (h : (if d = .f then some u else none) = some v) :
    d = .f ∧ u = v := by
  cases d with
  | w => cases h
  | f => exact ⟨rfl, Option.some.inj h⟩

theorem not_skipsOnZero {i : Instr} (hDecfsz : ∀ f d, i ≠ .decfsz f d) (hIncfsz : ∀ f d, i ≠ .incfsz f d) :
    ¬ skipsOnZero i :=
  fun ⟨f, d, hSkips⟩ => hSkips.elim (hDecfsz f d) (hIncfsz f d)

/-- A skip said of the byte read, where the statement says it of the result. -/
theorem skip_iff_result_zero {i : Instr} {s : State} {v : Byte} {K : Prop} [Decidable K]
    (hSkips : skipsOnZero i) (hResult : fileResult i s = v) (hK : K ↔ v = 0#8) :
    (some (decide K)).getD false = true ↔ skipsOnZero i ∧ fileResult i s = 0#8 := by
  simp [hSkips, hResult, hK]

/-- Each instruction that stores to a file register, by the rule it follows. -/
theorem loadsPcl_of_storesTo {i : Instr} {s : State} (h : storesTo i s = some .pcl) : LoadsPcl i s := by
  obtain ⟨-, hAndwf, -, hIorwf, -, hXorwf⟩ := andIorXorOfWAndFileRegister
  obtain ⟨-, hComf, -, hDecf, -, hIncf, -, hMovf⟩ := incrementDecrementComplementMove
  obtain ⟨-, hDecfsz, -, hIncfsz⟩ := decfszAndIncfszSkipOnAZeroResult
  obtain ⟨-, hRlf, -, hRrf⟩ := rotatesPassThroughCarry
  obtain ⟨-, hClrf, -, hMovwf⟩ := clrfAndMovwfStoreWithoutReading
  obtain ⟨-, hBcf, -, hBsf⟩ := bcfAndBsfRewriteTheWholeByte
  cases i with
  | addwf f d =>
    obtain ⟨rfl, hPcl⟩ := storeIf_eq_some h
    exact loadsPcl_of_plainRule (addwfAddsWAndFileRegister.2 f .f s) hPcl rfl rfl
      (not_skipsOnZero nofun nofun)
  | subwf f d =>
    obtain ⟨rfl, hPcl⟩ := storeIf_eq_some h
    exact loadsPcl_of_plainRule (subwfSubtractsWFromFileRegister.2 f .f s) hPcl rfl rfl
      (not_skipsOnZero nofun nofun)
  | rlf f d =>
    obtain ⟨rfl, hPcl⟩ := storeIf_eq_some h
    exact loadsPcl_of_plainRule (hRlf f .f s) hPcl rfl rfl (not_skipsOnZero nofun nofun)
  | rrf f d =>
    obtain ⟨rfl, hPcl⟩ := storeIf_eq_some h
    exact loadsPcl_of_plainRule (hRrf f .f s) hPcl rfl rfl (not_skipsOnZero nofun nofun)
  | swapf f d =>
    obtain ⟨rfl, hPcl⟩ := storeIf_eq_some h
    exact loadsPcl_of_plainRule (swapfExchangesNibbles.2 f .f s) hPcl rfl rfl (not_skipsOnZero nofun nofun)
  | andwf f d =>
    obtain ⟨rfl, hPcl⟩ := storeIf_eq_some h
    exact loadsPcl_of_plainRule (hAndwf f .f s) hPcl rfl rfl (not_skipsOnZero nofun nofun)
  | iorwf f d =>
    obtain ⟨rfl, hPcl⟩ := storeIf_eq_some h
    exact loadsPcl_of_plainRule (hIorwf f .f s) hPcl rfl rfl (not_skipsOnZero nofun nofun)
  | xorwf f d =>
    obtain ⟨rfl, hPcl⟩ := storeIf_eq_some h
    exact loadsPcl_of_plainRule (hXorwf f .f s) hPcl rfl rfl (not_skipsOnZero nofun nofun)
  | comf f d =>
    obtain ⟨rfl, hPcl⟩ := storeIf_eq_some h
    exact loadsPcl_of_plainRule (hComf f .f s) hPcl rfl rfl (not_skipsOnZero nofun nofun)
  | decf f d =>
    obtain ⟨rfl, hPcl⟩ := storeIf_eq_some h
    exact loadsPcl_of_plainRule (hDecf f .f s) hPcl rfl rfl (not_skipsOnZero nofun nofun)
  | incf f d =>
    obtain ⟨rfl, hPcl⟩ := storeIf_eq_some h
    exact loadsPcl_of_plainRule (hIncf f .f s) hPcl rfl rfl (not_skipsOnZero nofun nofun)
  | movf f d =>
    obtain ⟨rfl, hPcl⟩ := storeIf_eq_some h
    exact loadsPcl_of_plainRule (hMovf f .f s) hPcl rfl rfl (not_skipsOnZero nofun nofun)
  | decfsz f d =>
    obtain ⟨rfl, hPcl⟩ := storeIf_eq_some h
    exact loadsPcl_of_fileRule (hDecfsz f .f s) hPcl rfl
      (skip_iff_result_zero ⟨f, .f, .inl rfl⟩ (ofNat_decrement _) sub_eq_zero.symm)
  | incfsz f d =>
    obtain ⟨rfl, hPcl⟩ := storeIf_eq_some h
    exact loadsPcl_of_fileRule (hIncfsz f .f s) hPcl rfl
      (skip_iff_result_zero ⟨f, .f, .inr rfl⟩ (ofNat_increment _) (eq_neg_iff_add_eq_zero (b := 1#8)))
  | bcf f b =>
    exact loadsPcl_of_plainRule (hBcf f b s) (Option.some.inj h) rfl rfl (not_skipsOnZero nofun nofun)
  | bsf f b =>
    exact loadsPcl_of_plainRule (hBsf f b s) (Option.some.inj h) rfl rfl (not_skipsOnZero nofun nofun)
  | clrf f => exact loadsPcl_of_writeRule (hClrf f s) (Option.some.inj h) rfl (not_skipsOnZero nofun nofun)
  | movwf f => exact loadsPcl_of_writeRule (hMovwf f s) (Option.some.inj h) rfl (not_skipsOnZero nofun nofun)
  | clrw | nop | btfsc f b | btfss f b | addlw k | andlw k | call k | clrwdt | goto k | iorlw k | movlw k
  | retfie | retlw k | ret | sleep | sublw k | xorlw k => cases h

/-! ## The whole state after a store to PCL -/

theorem exec_movwf_pcl {f : FileField} {s : State} (h : fileTarget f s = .pcl) :
    exec (.movwf f) s = .next { s with pc := BitVec.ofNat 13 (256 * s.pclath.toNat + s.w.toNat) } :=
  dataWrite_pcl h s.w

theorem exec_clrf_pcl {f : FileField} {s : State} (h : fileTarget f s = .pcl) :
    ∃ st : Byte, exec (.clrf f) s =
      .next { s with pc := BitVec.ofNat 13 (256 * s.pclath.toNat), status := st } := by
  have hWrite : fileWrite f 0#8 s = .next { s with pc := BitVec.ofNat 13 (256 * s.pclath.toNat) } :=
    dataWrite_pcl h 0#8
  refine ⟨(s.setZero true).status, ?_⟩
  rw [exec, execClrf, hWrite]
  rfl

/-- The sum's carry reaches STATUS and not PC. -/
theorem exec_addwf_pcl_state {f : FileField} {s : State} (h : fileTarget f s = .pcl) :
    ∃ st : Byte, exec (.addwf f .f) s = .next { s with
      pc := BitVec.ofNat 13 (256 * s.pclath.toNat + (s.pc.toNat + s.w.toNat) % 256), status := st } := by
  have hByte : (sum8 s.w (s.pc.extractLsb' 0 8) false).toNat = (s.pc.toNat + s.w.toNat) % 256 := by
    rw [sum8_toNat, BitVec.extractLsb'_toNat, Nat.shiftRight_zero, Bool.toNat_false, add_zero,
      add_comm s.w.toNat]
    exact Nat.mod_add_mod _ _ _
  refine ⟨(flagsCDcZ s.w (s.pc.extractLsb' 0 8) false s).status, ?_⟩
  rw [exec, execAddwf, fileOp_eq (mapped_of_pcl h), h, ← hByte, ← pclLoad_eq_ofNat]
  rfl

/-- Settles O49, from the rules of the storing instructions and the write of PCL. -/
theorem writeOfPclTakesPclathAlong : Obligations.WriteOfPclTakesPclathAlong :=
  ⟨fun _ _ h => loadsPcl_of_storesTo h, fun _ v _ h => dataWrite_pcl h v, fun _ _ h => exec_movwf_pcl h,
    fun _ _ h => exec_clrf_pcl h, fun _ _ h => exec_addwf_pcl_state h⟩

/-! ## A read of PCL (10_state.md R12) -/

/-- MOVF of PCL to W loads the low byte of PC. -/
theorem exec_movf_pcl {f : FileField} {s : State} (h : fileTarget f s = .pcl) :
    ∃ t, exec (.movf f .w) s = .next t ∧ t.w = s.pc.extractLsb' 0 8 := by
  obtain ⟨-, -, -, -, -, -, -, hMovf⟩ := incrementDecrementComplementMove
  obtain ⟨⟨t, hExec, hDoes⟩, -⟩ := (hMovf f .w s).2 (mapped_of_pcl h)
  rw [h] at hDoes
  exact ⟨t, hExec, hDoes.w⟩

/-- Settles O48: while the instruction runs PC is already the next address. -/
theorem readOfPclGivesTheNextAddress : Obligations.ReadOfPclGivesTheNextAddress := by
  refine ⟨fun s u f hTurn hAwake hDecode hPcl => ?_, fun _ _ hCfg ha => dataRead_pcl (target_pcl hCfg ha)⟩
  obtain ⟨rest, rfl⟩ := cpuTurn_setEnv hTurn
  have hTarget : fileTarget f (fetched (s.setEnv rest)) = .pcl := hPcl
  obtain ⟨t, hExec, hW⟩ := exec_movf_pcl hTarget
  refine ⟨t, ⟨_, hTurn, hAwake, hDecode, hExec⟩, ?_, fun hPc => ?_⟩
  · rw [hW]
    exact lowByte_next_toNat s.pc
  · rw [hW, show (fetched (s.setEnv rest)).pc = 0x0102#13 from congrArg (· + 1#13) hPc]
    decide

end Sys2Proof.Claims
end

section
/-! What an instruction leaves alone (10_state.md R10, R14, R18 to R20, R22, R28): the change of an
instruction names the registers it may write, and a control instruction has its own frame. -/

namespace Sys2Proof.Machine

/-- IRP and RP1:RP0 are STATUS bits 7:5. -/
theorem irp_rp_of_banks_eq {s t : State} (h : t.status.extractLsb' 5 3 = s.status.extractLsb' 5 3) :
    t.irp = s.irp ∧ t.rp = s.rp := by
  have hBits : ∀ j < 3, t.status.getLsbD (5 + j) = s.status.getLsbD (5 + j) := fun j hj => by
    have hBit := congrArg (fun v => v.getLsbD j) h
    simpa [BitVec.getLsbD_extractLsb', hj] using hBit
  constructor
  · apply BitVec.eq_of_getLsbD_eq
    intro j hj
    obtain rfl : j = 0 := by omega
    simpa [State.irp] using hBits 2 (by decide)
  · apply BitVec.eq_of_getLsbD_eq
    intro j hj
    simpa [State.rp, BitVec.getLsbD_extractLsb', hj] using hBits j (by omega)

/-- What an instruction that does not store to STATUS keeps of it: the flags it does not list, and the bank
bits (R18 to R20). -/
structure FlagFrame (i : Instr) (s t : State) : Prop where
  zero : writesZero i = false → t.zero = s.zero
  carry : writesCarry i = false → t.carry = s.carry
  digitCarry : writesDigitCarry i = false → t.digitCarry = s.digitCarry
  banks : t.status.extractLsb' 5 3 = s.status.extractLsb' 5 3

theorem flagFrame_of_status_eq {i : Instr} {s t : State} (h : t.status = s.status) : FlagFrame i s t := by
  constructor <;> simp [State.zero, State.carry, State.digitCarry, h]

/-- CLRWDT and SLEEP write no flag: TO and PD are other bits of STATUS. -/
theorem flagFrame_of_timeOut_powerDown {i : Instr} {s t : State} {a b : Bool}
    (h : t.status = ((s.setTimeOut a).setPowerDown b).status) : FlagFrame i s t := by
  have hFrame : FlagFrame i ((s.setTimeOut a).setPowerDown b) t := flagFrame_of_status_eq h
  exact ⟨fun hz => by simpa using hFrame.zero hz, fun hc => by simpa using hFrame.carry hc,
    fun hdc => by simpa using hFrame.digitCarry hdc, by simpa using hFrame.banks⟩

section
variable {i : Instr} {s t : State}

theorem storedTo_eq_none {x : Change} {u : FileTarget} (hFits : Fits x i s) (h : storesTo i s ≠ some u) :
    x.storedTo u = none := by
  unfold Change.storedTo
  rw [← hFits.store] at h
  cases hStore : x.store with
  | none => rfl
  | some p =>
    have hOther : p.1 ≠ u := fun hEq => h (by rw [hStore, ← hEq]; rfl)
    exact if_neg hOther

theorem exec_flagFrame (h : exec i s = .next t) (hStatus : storesTo i s ≠ some .status) :
    FlagFrame i s t := by
  cases hControl : isControl i with
  | true =>
    by_cases hWatchdog : i = .clrwdt ∨ i = .sleep
    · rcases hWatchdog with rfl | rfl
      · obtain rfl := Host.Outcome.next.inj h
        exact flagFrame_of_timeOut_powerDown (a := true) (b := true) rfl
      · obtain rfl := Host.Outcome.next.inj h
        exact flagFrame_of_timeOut_powerDown (a := true) (b := false) rfl
    · obtain ⟨hClrwdt, hSleep⟩ := not_or.mp hWatchdog
      exact flagFrame_of_status_eq ((exec_control h hControl).status hClrwdt hSleep)
  | false =>
    obtain ⟨x, hDoes, hFits⟩ := exec_does h hControl
    have hNone := storedTo_eq_none hFits hStatus
    refine ⟨fun hz => ?_, fun hc => ?_, fun hdc => ?_, ?_⟩
    · rw [hDoes.zero, hFits.z hz, hNone]
      rfl
    · rw [hDoes.carry, hFits.c hc, hNone]
      rfl
    · rw [hDoes.digitCarry, hFits.dc hdc, hNone]
      rfl
    · rw [hDoes.banks, hNone]
      rfl

/-- What an instruction keeps of the registers and RAM: all that is not its destination (R10, R14). -/
structure DestFrame (i : Instr) (s t : State) : Prop where
  w : writesW i = false → t.w = s.w
  pclath : storesTo i s ≠ some .pclath → t.pclath = s.pclath
  fsr : storesTo i s ≠ some .fsr → t.fsr = s.fsr
  intcon : storesTo i s ≠ some .intcon → i ≠ .retfie → t.intcon = s.intcon
  ram : ∀ c, storesTo i s ≠ some (.ram c) → t.ramByte c = s.ramByte c

theorem exec_destFrame (h : exec i s = .next t) : DestFrame i s t := by
  cases hControl : isControl i with
  | true =>
    have hFrame := exec_control h hControl
    have hNotRetlw : writesW i = false → ∀ k, i ≠ .retlw k := by
      rintro hw k rfl
      cases hw
    exact ⟨fun hw => hFrame.w (hNotRetlw hw), fun _ => hFrame.pclath, fun _ => hFrame.fsr,
      fun _ => hFrame.intcon, fun c _ => State.ramByte_congr hFrame.data hFrame.powerUps c⟩
  | false =>
    obtain ⟨x, hDoes, hFits⟩ := exec_does h hControl
    refine ⟨fun hw => ?_, fun hu => ?_, fun hu => ?_, fun hu _ => ?_, fun c hu => ?_⟩
    · rw [hDoes.w, hFits.w hw]
      rfl
    · rw [hDoes.pclath, storedTo_eq_none hFits hu]
      rfl
    · rw [hDoes.fsr, storedTo_eq_none hFits hu]
      rfl
    · rw [hDoes.intcon, storedTo_eq_none hFits hu]
      rfl
    · rw [hDoes.ram, storedTo_eq_none hFits hu]
      rfl

/-- What an instruction keeps of the hidden state and the environment (10_state.md R28; 00_scope.md R5). -/
structure HiddenFrame (i : Instr) (s t : State) : Prop where
  stack : ¬ usesStack i → t.stack = s.stack ∧ t.ring = s.ring
  irq : t.irq = s.irq
  env : t.env = s.env
  cfg : t.cfg = s.cfg
  powerUps : t.powerUps = s.powerUps
  asleep : i ≠ .sleep → t.asleep = s.asleep
  wdt : i ≠ .sleep → i ≠ .clrwdt → t.wdt = s.wdt

/-- Of the control instructions GOTO, CLRWDT and SLEEP leave the stack. -/
theorem exec_control_stack (h : exec i s = .next t) (hControl : isControl i = true) (hStack : ¬ usesStack i) :
    t.stack = s.stack ∧ t.ring = s.ring := by
  cases i with
  | goto k | clrwdt | sleep =>
    obtain rfl := Host.Outcome.next.inj h
    exact ⟨rfl, rfl⟩
  | call k | ret | retlw k | retfie => simp [usesStack] at hStack
  | _ => cases hControl

theorem exec_hiddenFrame (h : exec i s = .next t) : HiddenFrame i s t := by
  cases hControl : isControl i with
  | true =>
    have hFrame := exec_control h hControl
    exact ⟨exec_control_stack h hControl, hFrame.irq, hFrame.env, hFrame.cfg, hFrame.powerUps, hFrame.asleep,
      fun hSleep hClrwdt => hFrame.wdt hClrwdt hSleep⟩
  | false =>
    obtain ⟨x, hDoes, -⟩ := exec_does h hControl
    exact ⟨fun _ => ⟨hDoes.stack, hDoes.ring⟩, hDoes.irq, hDoes.env, hDoes.cfg, hDoes.powerUps,
      fun _ => hDoes.asleep, fun _ _ => hDoes.wdt⟩

end

end Sys2Proof.Machine

namespace Sys2Proof.Claims

open Sys2Proof.Machine

/-- Settles O16: a change that stores nothing to STATUS writes the flags its instruction lists. -/
theorem flagsChangeOnlyWhereTheTableListsThem : Obligations.FlagsChangeOnlyWhereTheTableListsThem := by
  intro i s t hExec hStatus
  obtain ⟨hZero, hCarry, hDigitCarry, hBanks⟩ := exec_flagFrame hExec hStatus
  exact ⟨hZero, hCarry, hDigitCarry, irp_rp_of_banks_eq hBanks⟩

/-- Settles O17: a change writes its destination and nothing more of the registers and RAM. -/
theorem registersAndRamChangeOnlyAsDestinations :
    Obligations.RegistersAndRamChangeOnlyAsDestinations := by
  intro i s t hExec
  obtain ⟨hW, hPclath, hFsr, hIntcon, hRam⟩ := exec_destFrame hExec
  exact ⟨hW, hPclath, hFsr, hIntcon, hRam⟩

end Sys2Proof.Claims
end

section
/-! Two runs (10_state.md R22, R28; 20_memory.md R40): what a step does not read it does not depend on. No
instruction reads the code image, and only CALL and the returns read the return stack. -/

namespace Sys2Proof.Machine

open Sys2Proof.Claims

/-- `s` with other contents in the code image and in the return stack of both policies. -/
def State.withHidden (m : CodeImage) (l : List Pc) (r : Ring) (s : State) : State :=
  { s with code := m, stack := l, ring := r }

/-- `op` does not see what `g` changes: it answers the same, with the change made, or stops alike. -/
def Blind (g : State → State) (op : State → Result State) : Prop :=
  ∀ s, op (g s) = andThen (op s) fun t => .next (g t)

/-! ## The data space does not see the code image and the stack -/

section
variable (m : CodeImage) (l : List Pc) (r : Ring)

theorem fileTarget_withHidden (f : FileField) (s : State) :
    fileTarget f (s.withHidden m l r) = fileTarget f s :=
  fileTarget_congr rfl rfl rfl f

theorem valueAt_withHidden (u : FileTarget) (s : State) : valueAt u (s.withHidden m l r) = valueAt u s := by
  cases u <;> rfl

theorem afterRead_withHidden (u : FileTarget) (s : State) :
    afterRead u (s.withHidden m l r) = (afterRead u s).withHidden m l r := by
  cases u <;> rfl

theorem stored_withHidden (u : FileTarget) (v : Byte) (s : State) :
    stored u v (s.withHidden m l r) = (stored u v s).withHidden m l r := by
  cases u <;> rfl

theorem delivered_withHidden (d : Dest) (u : FileTarget) (v : Byte) (s : State) :
    delivered d u v (s.withHidden m l r) = (delivered d u v s).withHidden m l r := by
  cases d with
  | w => rfl
  | f => exact stored_withHidden m l r u v s

variable {m l r}

theorem mapped_withHidden {f : FileField} {s : State} (h : Mapped f s) : Mapped f (s.withHidden m l r) :=
  fun a => by
    rw [fileTarget_withHidden]
    exact h a

/-- The shape of R100 does not see them if what comes last does not. -/
theorem fileOp_withHidden {f : FileField} {d : Dest} {result : Byte → Byte} {last : Byte → State → State}
    (hLast : ∀ v u, last v (u.withHidden m l r) = (last v u).withHidden m l r) :
    Blind (State.withHidden m l r) (fileOp f d result last) := by
  intro s
  rcases mapped_or f s with hm | ⟨a, ha⟩
  · rw [fileOp_eq (mapped_withHidden hm), fileOp_eq hm, andThen_next, fileTarget_withHidden,
      valueAt_withHidden, afterRead_withHidden, delivered_withHidden, hLast]
  · rw [fileOp_fault ((fileTarget_withHidden m l r f s).trans ha), fileOp_fault ha, andThen_fault]

theorem fileTest_withHidden {f : FileField} {skips : Byte → Bool} :
    Blind (State.withHidden m l r) (fileTest f skips) := by
  intro s
  rcases mapped_or f s with hm | ⟨a, ha⟩
  · rw [fileTest_eq (mapped_withHidden hm), fileTest_eq hm, andThen_next, fileTarget_withHidden,
      valueAt_withHidden, afterRead_withHidden]
    rfl
  · rw [fileTest_fault ((fileTarget_withHidden m l r f s).trans ha), fileTest_fault ha, andThen_fault]

theorem fileWrite_withHidden {f : FileField} {v : Byte} :
    Blind (State.withHidden m l r) (fileWrite f v) := by
  intro s
  rcases mapped_or f s with hm | ⟨a, ha⟩
  · rw [fileWrite_eq (mapped_withHidden hm), fileWrite_eq hm, andThen_next, fileTarget_withHidden,
      stored_withHidden]
  · rw [fileWrite_fault ((fileTarget_withHidden m l r f s).trans ha), fileWrite_fault ha, andThen_fault]

/-- No instruction but CALL and the returns sees the code image or the stack. -/
theorem exec_withHidden {i : Instr} (hStack : ¬ usesStack i) :
    Blind (State.withHidden m l r) (exec i) := by
  intro s
  cases i with
  | addwf f d | andwf f d | comf f d | decf f d | decfsz f d | incf f d | incfsz f d | iorwf f d | movf f d
  | rlf f d | rrf f d | subwf f d | swapf f d | xorwf f d | bcf f b | bsf f b =>
    simp only [exec, execAddwf, execAndwf, execComf, execDecf, execDecfsz, execIncf, execIncfsz, execIorwf,
      execMovf, execRlf, execRrf, execSubwf, execSwapf, execXorwf, execBcf, execBsf]
    refine fileOp_withHidden ?_ s
    exact fun _ _ => rfl
  | btfsc f b | btfss f b =>
    simp only [exec, execBtfsc, execBtfss]
    exact fileTest_withHidden s
  | movwf f => exact fileWrite_withHidden s
  | clrf f =>
    simp only [exec, execClrf, fileWrite_withHidden s]
    cases fileWrite f 0#8 s <;> rfl
  | clrw | nop | addlw k | andlw k | iorlw k | movlw k | sublw k | xorlw k | goto k | clrwdt | sleep => rfl
  | call k | ret | retlw k | retfie => simp [usesStack] at hStack

end

/-! ## The return stack apart from the code image -/

theorem exec_setStack_setRing {i : Instr} (hStack : ¬ usesStack i) (s : State) (l : List Pc) (r : Ring) :
    exec i ((s.setStack l).setRing r) = andThen (exec i s) fun t => .next ((t.setStack l).setRing r) := by
  have hBlind := exec_withHidden (m := s.code) (l := l) (r := r) hStack s
  refine (hBlind :).trans ?_
  cases hExec : exec i s with
  | next t =>
    obtain ⟨hCode, -⟩ := exec_code_cfg hExec
    rw [andThen_next, andThen_next, ← hCode]
    rfl
  | fault e => rfl
  | refused e => rfl

/-! ## The code image apart from the return stack -/

section
variable (m : CodeImage)

/-- Operations blind to an image, one after the other. -/
theorem Blind.andThen {g : State → State} {x k : State → Result State} (hx : Blind g x) (hk : Blind g k) :
    Blind g fun s => Machine.andThen (x s) k := by
  intro s
  simp only [hx s]
  cases x s with
  | next t => exact hk t
  | fault e => rfl
  | refused e => rfl

theorem push_setCode (v : Pc) (s : State) :
    push v (s.setCode m) = andThen (push v s) fun t => .next (t.setCode m) := by
  cases hPolicy : s.cfg.stackPolicy with
  | fault =>
    by_cases hRoom : s.stack.length < 8
    · rw [push_fault_policy hPolicy hRoom]
      exact push_fault_policy (s := s.setCode m) hPolicy hRoom
    · have hFull := Nat.le_of_not_lt hRoom
      rw [push_overflow hPolicy hFull]
      exact push_overflow (s := s.setCode m) hPolicy hFull
  | wrap =>
    rw [push_wrap_policy hPolicy]
    exact push_wrap_policy (s := s.setCode m) hPolicy

theorem pop_setCode (s : State) :
    pop (s.setCode m) = andThen (pop s) fun r => .next (r.1, r.2.setCode m) := by
  cases hPolicy : s.cfg.stackPolicy with
  | fault =>
    cases hStack : s.stack with
    | nil =>
      rw [pop_underflow hPolicy hStack]
      exact pop_underflow (s := s.setCode m) hPolicy hStack
    | cons v rest =>
      rw [pop_fault_policy hPolicy hStack]
      exact pop_fault_policy (s := s.setCode m) hPolicy hStack
  | wrap =>
    cases hTop : ringTop s.ring with
    | none =>
      rw [pop_wrap_none hPolicy hTop]
      exact pop_wrap_none (s := s.setCode m) hPolicy hTop
    | some v =>
      rw [pop_wrap_some hPolicy hTop]
      exact pop_wrap_some (s := s.setCode m) hPolicy hTop

theorem popPc_setCode : Blind (fun s => s.setCode m) popPc := by
  intro s
  simp only [popPc, pop_setCode]
  cases pop s <;> rfl

/-- No instruction sees the code image. -/
theorem exec_setCode (i : Instr) : Blind (fun s => s.setCode m) (exec i) := by
  intro s
  by_cases hStack : usesStack i
  · rcases hStack with rfl | rfl | ⟨k, rfl⟩ | ⟨k, rfl⟩
    · exact popPc_setCode m s
    · exact (popPc_setCode m).andThen (k := fun t => .next (t.setGie true)) (fun _ => rfl) s
    · exact popPc_setCode m (s.setW k)
    · have hPush := push_setCode m s.pc s
      simp only [exec_call]
      refine (congrArg (andThen · _) hPush).trans ?_
      cases push s.pc s <;> rfl
  · have hBlind : exec i (s.setCode m) = _ := exec_withHidden (m := m) (l := s.stack) (r := s.ring) hStack s
    rw [hBlind]
    cases hExec : exec i s with
    | next t =>
      obtain ⟨hList, hRing⟩ := (exec_hiddenFrame hExec).stack hStack
      rw [andThen_next, andThen_next, ← hList, ← hRing]
      rfl
    | fault e => rfl
    | refused e => rfl

theorem takeInterrupt_setCode : Blind (fun s => s.setCode m) takeInterrupt := by
  intro s
  have hPush := push_setCode m s.pc (s.setGie false)
  refine (congrArg (andThen · _) hPush).trans ?_
  rw [takeInterrupt]
  cases push s.pc (s.setGie false) <;> rfl

theorem interruptCheck_setCode : Blind (fun s => s.setCode m) interruptCheck := by
  intro s
  simp only [interruptCheck_eq_ite]
  by_cases hEntry : s.irq = true ∧ s.gie = true ∧ s.asleep = false
  · rw [if_pos hEntry]
    exact (if_pos hEntry).trans (takeInterrupt_setCode m s)
  · rw [if_neg hEntry]
    exact if_neg hEntry

theorem applyEvent_setCode (e : EnvEvent) (s : State) :
    applyEvent e (s.setCode m) = (applyEvent e s).setCode m := by
  cases e with
  | watchdogTimeout =>
    simp only [applyEvent, watchdogTimeout, apply_ite (fun t : State => t.setCode m)]
    rfl
  | _ => rfl

end

/-- The step of the awake CPU sees one word of the image, the one at PC. -/
theorem awakeStep_setCode {m : CodeImage} {s : State} (h : (s.setCode m).progRead s.pc = s.progRead s.pc) :
    awakeStep (s.setCode m) = andThen (awakeStep s) fun t => .next (t.setCode m) := by
  have hFetch : (s.setCode m).progRead (s.setCode m).pc = s.progRead s.pc := h
  cases hDecode : decode (s.progRead s.pc) with
  | error e =>
    rw [awakeStep_of_decode_error hDecode, awakeStep, hFetch, hDecode]
    rfl
  | ok i =>
    rw [awakeStep, awakeStep, hFetch, hDecode]
    exact (exec_setCode m i).andThen (interruptCheck_setCode m) (advance s)

theorem cpuStep_setCode {m : CodeImage} {s : State} (h : (s.setCode m).progRead s.pc = s.progRead s.pc) :
    cpuStep (s.setCode m) = andThen (cpuStep s) fun t => .next (t.setCode m) := by
  cases hAsleep : s.asleep with
  | true =>
    have hSleep : (s.setCode m).asleep = true := hAsleep
    simp only [cpuStep, hAsleep, hSleep]
    rfl
  | false =>
    rw [cpuStep_awake hAsleep, cpuStep_awake (s := s.setCode m) hAsleep]
    exact awakeStep_setCode h

/-- Either it is the CPU's turn or an event's. -/
theorem cpuTurn_or_event (s : State) :
    (∃ u, CpuTurn s u) ∨ ∃ e rest, s.env = .environment e :: rest := by
  cases hEnv : s.env with
  | nil => exact .inl ⟨s, .inl ⟨hEnv, rfl⟩⟩
  | cons turn rest =>
    cases turn with
    | cpu => exact .inl ⟨_, .inr ⟨rest, hEnv, rfl⟩⟩
    | environment e => exact .inr ⟨e, rest, rfl⟩

theorem cpuTurn_setCode {m : CodeImage} {s u : State} (h : CpuTurn s u) :
    CpuTurn (s.setCode m) (u.setCode m) := by
  rcases h with ⟨hEnv, rfl⟩ | ⟨rest, hEnv, rfl⟩
  · exact .inl ⟨hEnv, rfl⟩
  · exact .inr ⟨rest, hEnv, rfl⟩

theorem step_setCode {m : CodeImage} {s : State} (h : (s.setCode m).progRead s.pc = s.progRead s.pc) :
    step (s.setCode m) = andThen (step s) fun t => .next (t.setCode m) := by
  rcases cpuTurn_or_event s with ⟨u, hTurn⟩ | ⟨e, rest, hEnv⟩
  · rw [step_of_cpuTurn hTurn, step_of_cpuTurn (cpuTurn_setCode hTurn)]
    obtain ⟨rest, rfl⟩ := cpuTurn_setEnv hTurn
    exact cpuStep_setCode (s := s.setEnv rest) h
  · rw [step_of_environment hEnv, step_of_environment (s := s.setCode m) hEnv]
    exact congrArg Host.Outcome.next (applyEvent_setCode m e (s.setEnv rest))

/-! ## No step is refused -/

theorem andThen_ne_refused {α β : Type} {x : Result α} {k : α → Result β} (hx : ∀ r, x ≠ .refused r)
    (hk : ∀ a r, k a ≠ .refused r) : ∀ r, andThen x k ≠ .refused r := by
  cases x with
  | next a => exact hk a
  | fault e => exact nofun
  | refused r => exact absurd rfl (hx r)

theorem push_ne_refused (v : Pc) (s : State) : ∀ r, push v s ≠ .refused r := by
  unfold push
  split
  · split <;> exact nofun
  · exact nofun

theorem pop_ne_refused (s : State) : ∀ r, pop s ≠ .refused r := by
  unfold pop
  split <;> split <;> exact nofun

theorem popPc_ne_refused (s : State) : ∀ r, popPc s ≠ .refused r :=
  andThen_ne_refused (pop_ne_refused s) fun _ => nofun

theorem readTarget_ne_refused (u : FileTarget) (s : State) : ∀ r, readTarget u s ≠ .refused r := by
  cases u <;> exact nofun

theorem writeTarget_ne_refused (u : FileTarget) (v : Byte) (s : State) :
    ∀ r, writeTarget u v s ≠ .refused r := by
  cases u <;> exact nofun

theorem fileOp_ne_refused (f : FileField) (d : Dest) (result : Byte → Byte) (last : Byte → State → State)
    (s : State) : ∀ r, fileOp f d result last s ≠ .refused r := by
  refine andThen_ne_refused (readTarget_ne_refused _ _) fun p => andThen_ne_refused ?_ fun _ => nofun
  cases d with
  | w => exact nofun
  | f => exact writeTarget_ne_refused _ _ _

theorem fileTest_ne_refused (f : FileField) (skips : Byte → Bool) (s : State) :
    ∀ r, fileTest f skips s ≠ .refused r :=
  andThen_ne_refused (readTarget_ne_refused _ _) fun _ => nofun

theorem exec_ne_refused (i : Instr) (s : State) : ∀ r, exec i s ≠ .refused r := by
  cases i with
  | addwf f d | andwf f d | comf f d | decf f d | decfsz f d | incf f d | incfsz f d | iorwf f d | movf f d
  | rlf f d | rrf f d | subwf f d | swapf f d | xorwf f d | bcf f b | bsf f b =>
    simp only [exec, execAddwf, execAndwf, execComf, execDecf, execDecfsz, execIncf, execIncfsz, execIorwf,
      execMovf, execRlf, execRrf, execSubwf, execSwapf, execXorwf, execBcf, execBsf]
    exact fileOp_ne_refused _ _ _ _ _
  | btfsc f b | btfss f b =>
    simp only [exec, execBtfsc, execBtfss]
    exact fileTest_ne_refused _ _ _
  | movwf f => exact writeTarget_ne_refused _ _ _
  | clrf f => exact andThen_ne_refused (writeTarget_ne_refused _ _ _) fun _ => nofun
  | clrw | nop | addlw k | andlw k | iorlw k | movlw k | sublw k | xorlw k | goto k | clrwdt | sleep =>
    exact nofun
  | call k => exact andThen_ne_refused (push_ne_refused _ _) fun _ => nofun
  | ret | retlw k => exact popPc_ne_refused _
  | retfie => exact andThen_ne_refused (popPc_ne_refused _) fun _ => nofun

theorem interruptCheck_ne_refused (s : State) : ∀ r, interruptCheck s ≠ .refused r := by
  unfold interruptCheck
  split
  · exact andThen_ne_refused (push_ne_refused _ _) fun _ => nofun
  · exact nofun

theorem cpuStep_ne_refused (s : State) : ∀ r, cpuStep s ≠ .refused r := by
  unfold cpuStep
  split
  · exact nofun
  · unfold awakeStep
    split
    · exact nofun
    · exact andThen_ne_refused (exec_ne_refused _ _) interruptCheck_ne_refused

theorem step_ne_refused (s : State) : ∀ r, step s ≠ .refused r := by
  rcases cpuTurn_or_event s with ⟨u, hTurn⟩ | ⟨e, rest, hEnv⟩
  · rw [step_of_cpuTurn hTurn]
    exact cpuStep_ne_refused u
  · rw [step_of_environment hEnv]
    exact nofun

end Sys2Proof.Machine

namespace Sys2Proof.Claims

open Sys2Proof.Machine

/-- Settles O10: fetch is the only read of the code image, and nothing is refused. -/
theorem onlyFetchReadsTheCode : Obligations.OnlyFetchReadsTheCode := by
  intro s m hFetch
  have hStep : step { s with code := m } = _ := step_setCode (m := m) hFetch
  refine ⟨fun t hNext => ?_, fun e hFault => ?_, step_ne_refused s⟩
  · rw [hStep, hNext]
    rfl
  · rw [hStep, hFault]
    rfl

/-- Settles O18: the frame of the hidden state, and the two runs that differ in the stack alone. -/
theorem onlyCallsAndReturnsTouchTheStack : Obligations.OnlyCallsAndReturnsTouchTheStack := by
  refine ⟨fun i s t hExec => ?_, fun i s l r hStack => ?_⟩
  · obtain ⟨hStack, hIrq, hEnv, hCfg, hPowerUps, hAsleep, hWdt⟩ := exec_hiddenFrame hExec
    exact ⟨hStack, hIrq, hEnv, hCfg, hPowerUps, hAsleep, hWdt⟩
  · have hRun : exec i { s with stack := l, ring := r } = _ := exec_setStack_setRing hStack s l r
    refine ⟨fun t hNext => ?_, fun e hFault => ?_⟩
    · rw [hRun, hNext]
      rfl
    · rw [hRun, hFault]
      rfl

end Sys2Proof.Claims
end

section
/-! The return stack (10_state.md R22, R23): pushes and pops under both policies, the returns
(44_control_operations.md R142 to R144), and RETFIE with the request still there (60_exceptions.md R162,
R164). -/

namespace Sys2Proof.Machine

open Sys2Proof.Claims

/-! ## The slots of the circular buffer -/

theorem slot_ringPush (r : Ring) (v : Pc) (j : BitVec 3) :
    slot (ringPush r v) j = if j = r.ptr then some v else slot r j := by
  refine (ringPush_slot r v ⟨j.toNat, j.isLt⟩).trans ?_
  simp only [BitVec.toNat_inj]
  rfl

theorem slot_ringPop (r : Ring) (v : Pc) (j : BitVec 3) :
    slot (ringPop r v) j = if j = r.ptr - 1#3 then some v else slot r j := by
  refine (ringPop_slot r v ⟨j.toNat, j.isLt⟩).trans ?_
  simp only [BitVec.toNat_inj]
  rfl

theorem ring_ext {r q : Ring} (hPtr : r.ptr = q.ptr) (hSlots : ∀ j, slot r j = slot q j) : r = q := by
  obtain ⟨rSlots, rPtr⟩ := r
  obtain ⟨qSlots, qPtr⟩ := q
  obtain rfl : rPtr = qPtr := hPtr
  congr 1
  refine Vector.ext fun i hi => ?_
  have h := hSlots (BitVec.ofNat 3 i)
  have hNat : (BitVec.ofNat 3 i).toNat = i := by
    rw [BitVec.toNat_ofNat]
    exact Nat.mod_eq_of_lt hi
  simpa [slot, Vector.get_eq_getElem, hNat] using h

/-- After a pop a push of the same address changes the popped slot at most. -/
theorem slot_ringPush_ringPop (r : Ring) (v : Pc) (j : BitVec 3) :
    slot (ringPush (ringPop r v) v) j = if j = r.ptr - 1#3 then some v else slot r j := by
  rw [slot_ringPush, slot_ringPop, ringPop_ptr]
  split <;> rfl

theorem ringPush_ringPop_ptr (r : Ring) (v : Pc) : (ringPush (ringPop r v) v).ptr = r.ptr := by
  rw [ringPush_ptr, ringPop_ptr, BitVec.sub_add_cancel]

/-- Popping the address a slot holds and pushing it again changes nothing. -/
theorem ringPush_ringPop_of_slot {r : Ring} {v : Pc} (h : slot r (r.ptr - 1#3) = some v) :
    ringPush (ringPop r v) v = r := by
  refine ring_ext (ringPush_ringPop_ptr r v) fun j => ?_
  rw [slot_ringPush_ringPop]
  split
  · rename_i hj
    rw [hj, h]
  · rfl

/-- The pointer counts the pushes modulo 8. -/
theorem foldl_ringPush_ptr (l : List Pc) : ∀ r : Ring,
    (l.foldl ringPush r).ptr = r.ptr + BitVec.ofNat 3 l.length := by
  induction l with
  | nil => exact fun r => (BitVec.add_zero _).symm
  | cons v l ih =>
    intro r
    rw [List.foldl_cons, ih, ringPush_ptr, List.length_cons, Nat.add_comm, BitVec.ofNat_add, BitVec.add_assoc]

/-- The ninth of nine pushes lands where the first did. -/
theorem slot_of_nine_pushes (r : Ring) (a b : Pc) {l : List Pc} (h : l.length = 7) :
    slot ((a :: l ++ [b]).foldl ringPush r) r.ptr = some b := by
  have hPtr : ((a :: l).foldl ringPush r).ptr = r.ptr := by
    rw [foldl_ringPush_ptr, List.length_cons, h]
    exact BitVec.add_zero _
  rw [List.foldl_append, List.foldl_cons, List.foldl_nil, slot_ringPush, hPtr, if_pos rfl]

/-! ## A push undone by a pop -/

theorem pop_push {v : Pc} {s t : State} (h : push v s = .next t) :
    ∃ u, pop t = .next (v, u) ∧ u.stack = s.stack ∧ u.ring.ptr = s.ring.ptr ∧
      (∀ j, j ≠ s.ring.ptr → slot u.ring j = slot s.ring j) ∧ u = { s with ring := u.ring } := by
  rcases push_next h with ⟨hPolicy, -, rfl⟩ | ⟨hPolicy, rfl⟩
  · have hPop := pop_fault_policy (s := s.setStack (v :: s.stack)) hPolicy rfl
    exact ⟨_, hPop, rfl, rfl, fun _ _ => rfl, rfl⟩
  · have hPop := pop_wrap_some (s := s.setRing (ringPush s.ring v)) hPolicy (ringTop_ringPush s.ring v)
    have hBack : s.ring.ptr + 1#3 - 1#3 = s.ring.ptr := BitVec.add_sub_cancel _ _
    refine ⟨_, hPop, rfl, hBack, fun j hj => ?_, rfl⟩
    have hPushed : slot (ringPush s.ring v) j = slot s.ring j := by rw [slot_ringPush, if_neg hj]
    refine Eq.trans ?_ hPushed
    exact (slot_ringPop (ringPush s.ring v) v j).trans (if_neg (by rwa [ringPush_ptr, hBack]))

/-! ## Who pushes and who pops -/

/-- From `s` to `t` nothing is pushed: the stack is no longer, and the pointer does not move up. -/
structure NoPush (s t : State) : Prop where
  length : t.stack.length ≤ s.stack.length
  ptr : t.ring.ptr ≠ s.ring.ptr + 1#3

/-- From `s` to `t` nothing is popped: the stack is no shorter, and the pointer does not move down. -/
structure NoPop (s t : State) : Prop where
  length : s.stack.length ≤ t.stack.length
  ptr : t.ring.ptr ≠ s.ring.ptr - 1#3

theorem ptr_moves : ∀ p : BitVec 3, p ≠ p + 1#3 ∧ p ≠ p - 1#3 ∧ p + 1#3 ≠ p - 1#3 := by decide

section
variable {i : Instr} {s t : State}

theorem noPush_of_same (hStack : t.stack = s.stack) (hRing : t.ring = s.ring) : NoPush s t :=
  ⟨by rw [hStack], by rw [hRing]; exact (ptr_moves s.ring.ptr).1⟩

theorem noPop_of_same (hStack : t.stack = s.stack) (hRing : t.ring = s.ring) : NoPop s t :=
  ⟨by rw [hStack], by rw [hRing]; exact (ptr_moves s.ring.ptr).2.1⟩

theorem push_noPop {v : Pc} (h : push v s = .next t) : NoPop s t := by
  obtain ⟨-, hKept, hUp⟩ := ptr_moves s.ring.ptr
  rcases push_next h with ⟨-, -, rfl⟩ | ⟨-, rfl⟩
  · exact ⟨Nat.le_succ _, hKept⟩
  · exact ⟨Nat.le_refl _, hUp⟩

theorem pop_noPush {r : Pc × State} (h : pop s = .next r) : NoPush s r.2 := by
  obtain ⟨hKept, -, hUp⟩ := ptr_moves s.ring.ptr
  refine ⟨pop_stack_length h, ?_⟩
  rcases pop_next h with ⟨rest, -, -, h2⟩ | ⟨-, -, h2⟩ | ⟨-, -, -, h2⟩ <;> rw [h2]
  · exact hKept
  · exact hUp.symm
  · exact hUp.symm

theorem popPc_noPush (h : popPc s = .next t) : NoPush s t := by
  obtain ⟨r, hPop, rfl⟩ := popPc_next h
  obtain ⟨hLength, hPtr⟩ := pop_noPush hPop
  exact ⟨hLength, hPtr⟩

/-- Among the instructions only CALL pushes. -/
theorem exec_noPush (h : exec i s = .next t) (hCall : ¬ ∃ k, i = .call k) : NoPush s t := by
  by_cases hStack : usesStack i
  · rcases hStack with rfl | rfl | ⟨k, rfl⟩ | hi
    · exact popPc_noPush h
    · obtain ⟨r, hPop, rfl⟩ := execRetfie_next h
      obtain ⟨hLength, hPtr⟩ := pop_noPush hPop
      exact ⟨hLength, hPtr⟩
    · obtain ⟨hLength, hPtr⟩ := popPc_noPush (s := s.setW k) h
      exact ⟨hLength, hPtr⟩
    · exact absurd hi hCall
  · obtain ⟨hSame, hRing⟩ := (exec_hiddenFrame h).stack hStack
    exact noPush_of_same hSame hRing

/-- Among the instructions only the returns pop. -/
theorem exec_noPop (h : exec i s = .next t) (hReturn : ¬ (i = .ret ∨ i = .retfie ∨ ∃ k, i = .retlw k)) :
    NoPop s t := by
  by_cases hStack : usesStack i
  · rcases hStack with hi | hi | hi | ⟨k, rfl⟩
    · exact absurd (.inl hi) hReturn
    · exact absurd (.inr (.inl hi)) hReturn
    · exact absurd (.inr (.inr hi)) hReturn
    · obtain ⟨u, hPush, rfl⟩ := execCall_next h
      obtain ⟨hLength, hPtr⟩ := push_noPop hPush
      exact ⟨hLength, hPtr⟩
  · obtain ⟨hSame, hRing⟩ := (exec_hiddenFrame h).stack hStack
    exact noPop_of_same hSame hRing

/-- The interrupt test pushes at most. -/
theorem interruptCheck_noPop (h : interruptCheck s = .next t) : NoPop s t := by
  rcases interruptCheck_next h with rfl | ⟨-, -, -, hEntry⟩
  · exact noPop_of_same rfl rfl
  · obtain ⟨u, hPush, rfl⟩ := takeInterrupt_next hEntry
    obtain ⟨hLength, hPtr⟩ := push_noPop hPush
    exact ⟨hLength, hPtr⟩

theorem interruptCheck_keeps_stack (h : interruptCheck s = .next t)
    (hNoEntry : ¬ (s.irq = true ∧ s.gie = true ∧ s.asleep = false)) :
    t.stack = s.stack ∧ t.ring = s.ring := by
  rw [interruptCheck_eq_ite, if_neg hNoEntry] at h
  obtain rfl := Host.Outcome.next.inj h
  exact ⟨rfl, rfl⟩

end

/-! ## The returns (R142 to R144) -/

section
variable {s u : State} {v : Pc}

/-- What the three returns make of a pop; RETLW's W is loaded before it. -/
theorem returns_of_pop (h : pop s = .next (v, u)) (hW : ∀ k, pop (s.setW k) = .next (v, u.setW k)) :
    exec .ret s = .next (u.setPc v) ∧ (∀ k, exec (.retlw k) s = .next ((u.setW k).setPc v)) ∧
      exec .retfie s = .next ((u.setPc v).setIntcon (u.intcon ||| 0x80#8)) := by
  have hPopPc : popPc s = .next (u.setPc v) := by rw [popPc, h, andThen_next]
  refine ⟨hPopPc, fun k => ?_, ?_⟩
  · show popPc (s.setW k) = _
    rw [popPc, hW, andThen_next]
  · show returnFromInterrupt s = _
    rw [returnFromInterrupt, hPopPc, andThen_next, State.setGie_true, State.setPc_intcon]

theorem returns_underflow (hPolicy : s.cfg.stackPolicy = .fault) (hStack : s.stack = []) :
    exec .ret s = .fault .stackUnderflow ∧ (∀ k, exec (.retlw k) s = .fault .stackUnderflow) ∧
      exec .retfie s = .fault .stackUnderflow := by
  have hPopPc : ∀ t : State, t.cfg.stackPolicy = .fault → t.stack = [] →
      popPc t = .fault .stackUnderflow := fun t hp hs => by rw [popPc, pop_underflow hp hs, andThen_fault]
  refine ⟨hPopPc s hPolicy hStack, fun k => hPopPc (s.setW k) hPolicy hStack, ?_⟩
  show returnFromInterrupt s = _
  rw [returnFromInterrupt, hPopPc s hPolicy hStack, andThen_fault]

end

/-! ## RETFIE with the request still there (60_exceptions.md R162, R164) -/

/-- GIE set by RETFIE and cleared by the entry that follows: INTCON but for bit 7. -/
theorem getLsbD_gie_set_cleared (v : Byte) (j : Nat) :
    ((v ||| 0x80#8) &&& 0x7F#8).getLsbD j = (decide (j ≠ 7) && v.getLsbD j) := by
  show (setBit (setBit v 7 true) 7 false).getLsbD j = _
  rw [getLsbD_setBit, getLsbD_setBit]
  by_cases hj : j = 7 <;> simp [hj]

theorem pop_fetched_policy {s u w : State} {v : Pc} (hTurn : CpuTurn s u)
    (hPop : pop (fetched u) = .next (v, w)) : w.cfg.stackPolicy = s.cfg.stackPolicy := by
  have hFrame := pop_frame hPop
  obtain ⟨rest, rfl⟩ := cpuTurn_setEnv hTurn
  exact congrArg Config.stackPolicy hFrame.cfg

section
variable {s u w : State} {v : Pc} (hTurn : CpuTurn s u) (hAwake : s.asleep = false) (hIrq : s.irq = true)
  (hDecode : decode (s.progRead s.pc) = .ok .retfie) (hPop : pop (fetched u) = .next (v, w))
include hTurn hAwake hIrq hDecode hPop

/-- The awake CPU's turn at a RETFIE with IRQ = 1, from the pop: GIE is set, so the entry follows. -/
theorem step_retfie_requested : step s = takeInterrupt ((w.setPc v).setIntcon (w.intcon ||| 0x80#8)) := by
  have hExec : exec .retfie (fetched u) = .next ((w.setPc v).setIntcon (w.intcon ||| 0x80#8)) := by
    show returnFromInterrupt (fetched u) = _
    rw [returnFromInterrupt, popPc, hPop, andThen_next, andThen_next, State.setGie_true, State.setPc_intcon]
  have hGie : ((w.setPc v).setIntcon (w.intcon ||| 0x80#8)).gie = true := by
    show (setBit w.intcon 7 true).getLsbD 7 = true
    rw [getLsbD_setBit]
    rfl
  have hFrame := pop_frame hPop
  obtain ⟨rest, rfl⟩ := cpuTurn_setEnv hTurn
  rw [step_of_decode hTurn hAwake hDecode, hExec, andThen_next, interruptCheck_eq_ite, if_pos]
  exact ⟨hFrame.irq.trans hIrq, hGie, hFrame.asleep.trans hAwake⟩

theorem step_retfie_fault (hPolicy : s.cfg.stackPolicy = .fault) (hRoom : w.stack.length < 8) :
    step s = .next (((w.setPc 0x0004#13).setIntcon ((w.intcon ||| 0x80#8) &&& 0x7F#8)).setStack
      (v :: w.stack)) := by
  have hW := (pop_fetched_policy hTurn hPop).trans hPolicy
  rw [step_retfie_requested hTurn hAwake hIrq hDecode hPop]
  exact takeInterrupt_fault_policy (s := (w.setPc v).setIntcon _) hW hRoom

theorem step_retfie_wrap (hPolicy : s.cfg.stackPolicy = .wrap) :
    step s = .next (((w.setPc 0x0004#13).setIntcon ((w.intcon ||| 0x80#8) &&& 0x7F#8)).setRing
      (ringPush w.ring v)) := by
  have hW := (pop_fetched_policy hTurn hPop).trans hPolicy
  rw [step_retfie_requested hTurn hAwake hIrq hDecode hPop]
  exact takeInterrupt_wrap_policy (s := (w.setPc v).setIntcon _) hW

end

end Sys2Proof.Machine

namespace Sys2Proof.Claims

open Sys2Proof.Machine

/-- Settles O19, from what a push that answers can be. -/
theorem returnStackIsLastInFirstOut : Obligations.ReturnStackIsLastInFirstOut :=
  fun _ _ _ hPush => pop_push hPush

/-- Settles O20, from the push under each policy, the pointer of nine pushes, and who pushes and pops. -/
theorem stackOfEightLevelsStopsUnderTheFaultPolicy :
    Obligations.StackOfEightLevelsStopsUnderTheFaultPolicy := by
  refine ⟨fun _ _ hPolicy hRoom => push_fault_policy hPolicy hRoom,
    fun _ _ hPolicy hFull => push_overflow hPolicy hFull, fun _ _ hPolicy => push_wrap_policy hPolicy,
    fun r v j => ⟨slot_ringPush r v j, rfl⟩, fun r a b _ hSeven => slot_of_nine_pushes r a b hSeven,
    fun i s t hExec => ⟨fun hPush => ?_, fun hPop => ?_, (exec_hiddenFrame hExec).stack⟩,
    fun s t hCheck => ?_⟩
  · by_contra hCall
    obtain ⟨hLength, hPtr⟩ := exec_noPush hExec hCall
    exact hPush.elim (Nat.not_lt.mpr hLength) hPtr
  · by_contra hReturn
    obtain ⟨hLength, hPtr⟩ := exec_noPop hExec hReturn
    exact hPop.elim (Nat.not_lt.mpr hLength) hPtr
  · obtain ⟨hLength, hPtr⟩ := interruptCheck_noPop hCheck
    exact ⟨hLength, hPtr, interruptCheck_keeps_stack hCheck⟩

/-- Settles O21, from the pop under each policy. -/
theorem popGivesTheNewestLevel : Obligations.PopGivesTheNewestLevel := by
  refine ⟨fun _ _ _ hPolicy hStack => pop_fault_policy hPolicy hStack,
    fun _ hPolicy hStack => pop_underflow hPolicy hStack, fun s hPolicy => ?_,
    fun r v => ⟨rfl, slot_ringPop r v⟩⟩
  cases hSlot : slot s.ring (s.ring.ptr - 1#3) with
  | none => exact pop_wrap_none hPolicy hSlot
  | some v => exact pop_wrap_some hPolicy hSlot

/-- Settles O37, from the pop under each policy. -/
theorem returnsPopThePc : Obligations.ReturnsPopThePc := by
  refine ⟨decode_encode .ret, decode_encode .retfie, fun x k => ?_, fun s v rest hPolicy hStack => ?_,
    fun s hPolicy hStack => returns_underflow hPolicy hStack, fun s v hPolicy hSlot => ?_,
    fun s v hPolicy hSlot hv => ?_, fun _ _ => ⟨rfl, rfl, rfl⟩⟩
  · have hx : ∀ x : BitVec 2, 0b110100#6 ||| ((0b1101#4 ++ x) &&& 3#6) = 0b1101#4 ++ x := by decide
    exact decode_literalWord rfl rfl (hx x)
  · exact returns_of_pop (pop_fault_policy hPolicy hStack)
      fun k => pop_fault_policy (s := s.setW k) hPolicy hStack
  · exact returns_of_pop (pop_wrap_some hPolicy hSlot) fun k => pop_wrap_some (s := s.setW k) hPolicy hSlot
  · rw [hv]
    exact returns_of_pop (pop_wrap_none hPolicy hSlot) fun k => pop_wrap_none (s := s.setW k) hPolicy hSlot

/-- Settles O41: the address popped is pushed again, which leaves the stack as it was but for a slot that
held no value. -/
theorem retfieWithAPendingRequestReentersAtOnce : Obligations.RetfieWithAPendingRequestReentersAtOnce := by
  refine ⟨fun s u hWf hTurn hAwake hIrq hPolicy hNonempty hDecode => ?_,
    fun s u hTurn hAwake hIrq hPolicy hDecode => ?_⟩
  · obtain ⟨rest, rfl⟩ := cpuTurn_setEnv hTurn
    obtain ⟨v, levels, hStack⟩ := List.exists_cons_of_ne_nil hNonempty
    have hPop := pop_fault_policy (s := fetched (s.setEnv rest)) hPolicy hStack
    have hRoom : levels.length < 8 := by
      have hEight := hWf.stack
      rwa [hStack, List.length_cons] at hEight
    refine ⟨_, ?_, getLsbD_gie_set_cleared s.intcon⟩
    rw [step_retfie_fault hTurn hAwake hIrq hDecode hPop hPolicy hRoom, State.setStack_stack, ← hStack]
    rfl
  · obtain ⟨rest, rfl⟩ := cpuTurn_setEnv hTurn
    refine ⟨_, getLsbD_gie_set_cleared s.intcon, fun v hSlot => ?_, fun hSlot =>
      ⟨ringPush (ringPop s.ring (Config.freePc s.draws)) (Config.freePc s.draws),
        ringPush_ringPop_ptr s.ring _, slot_ringPush_ringPop s.ring _, ?_⟩⟩
    · have hPop := pop_wrap_some (s := fetched (s.setEnv rest)) hPolicy hSlot
      have hRing : ringPush (ringPop (fetched (s.setEnv rest)).ring v) v = s.ring :=
        ringPush_ringPop_of_slot hSlot
      rw [step_retfie_wrap hTurn hAwake hIrq hDecode hPop hPolicy, State.setRing_ring, hRing]
      rfl
    · have hPop := pop_wrap_none (s := fetched (s.setEnv rest)) hPolicy hSlot
      exact step_retfie_wrap hTurn hAwake hIrq hDecode hPop hPolicy

end Sys2Proof.Claims
end

section
/-! Turns of the CPU and of the environment (00_scope.md R5, R8): the instruction and the interrupt test, the
sleeping CPU (60_exceptions.md R170), the watchdog's count and time-out (R172), the request line (R161) and
the resets (70_reset_and_hazards.md R180). -/

namespace Sys2Proof.Machine

open Sys2Proof.Claims

/-! ## The CPU's turn -/

/-- The interrupt test written out: GIE cleared, PC pushed, PC at 0004h (R162). -/
theorem interruptCheck_eq (t : State) :
    interruptCheck t =
      if t.asleep = false ∧ t.irq = true ∧ t.gie = true then
        andThen (push t.pc { t with intcon := t.intcon &&& 0x7F#8 }) fun v => .next { v with pc := 0x0004#13 }
      else .next t := by
  rw [interruptCheck_eq_ite, takeInterrupt, State.setGie_false]
  exact if_congr (by tauto) rfl rfl

/-- On its turn a sleeping CPU makes the wake-up test alone (R170). -/
theorem step_of_asleep {s u : State} (hTurn : CpuTurn s u) (hAsleep : s.asleep = true) :
    step s = .next ((u.setAsleep (!s.irq)).setWdt (s.wdt + 1)) := by
  rw [step_of_cpuTurn hTurn]
  obtain ⟨rest, rfl⟩ := cpuTurn_setEnv hTurn
  exact if_pos hAsleep

/-- With IRQ = 0 it stays asleep. -/
theorem step_of_asleep_low {s u : State} (hTurn : CpuTurn s u) (hAsleep : s.asleep = true)
    (hIrq : s.irq = false) : step s = .next (u.setWdt (s.wdt + 1)) := by
  rw [step_of_asleep hTurn hAsleep, hIrq, Bool.not_false, ← hAsleep]
  obtain ⟨rest, rfl⟩ := cpuTurn_setEnv hTurn
  rfl

theorem cpuTurn_env {s u : State} (h : CpuTurn s u) : u = s.setEnv (s.env.drop 1) := by
  rcases h with ⟨hEnv, rfl⟩ | ⟨rest, hEnv, rfl⟩
  · rw [hEnv, List.drop_nil, ← hEnv]
    rfl
  · rw [hEnv]
    rfl

/-! ## A sleeping CPU with no wake-up to come (70_reset_and_hazards.md R183) -/

theorem State.hangs_iff {s : State} : s.hangs = true ↔
    s.asleep = true ∧ s.irqStaysLow = true ∧ timeoutToCome s.cfg.wdtEnabled s.wdt s.env = false := by
  simp [State.hangs, and_assoc]

theorem timeoutToCome_cpuTurn {s u : State} {enabled : Bool} {n : Nat} (hTurn : CpuTurn s u)
    (h : timeoutToCome enabled n s.env = false) : timeoutToCome enabled (n + 1) u.env = false := by
  rcases hTurn with ⟨hEnv, rfl⟩ | ⟨rest, hEnv, rfl⟩
  · rw [hEnv]
    rfl
  · rwa [hEnv] at h

/-- An event that resets nothing leaves none to come, and is itself no time-out that may occur. -/
theorem timeoutToCome_event {enabled : Bool} {n : Nat} {e : EnvEvent} {rest : List Turn}
    (h : timeoutToCome enabled n (.environment e :: rest) = false) (hReset : e ≠ .externalReset)
    (hPower : e ≠ .powerUp) :
    timeoutToCome enabled n rest = false ∧ (e = .watchdogTimeout → enabled = false ∨ n = 0) := by
  cases e with
  | irqLine level => exact ⟨h, nofun⟩
  | irqSources q => exact ⟨h, nofun⟩
  | watchdogTimeout =>
    obtain ⟨hNow, hLater⟩ := Bool.or_eq_false_iff.mp h
    refine ⟨hLater, fun _ => ?_⟩
    simpa [Nat.lt_one_iff] using Bool.and_eq_false_iff.mp hNow
  | externalReset => exact absurd rfl hReset
  | powerUp => exact absurd rfl hPower

/-- On the CPU's turn it stays asleep, still with none to come. -/
theorem step_hangs_cpu {s u : State} (h : s.hangs = true) (hTurn : CpuTurn s u) :
    step s = .next (u.setWdt (s.wdt + 1)) ∧ (u.setWdt (s.wdt + 1)).hangs = true := by
  obtain ⟨hAsleep, hLow, hNone⟩ := State.hangs_iff.mp h
  have hStep := step_of_asleep_low hTurn hAsleep (State.irq_of_irqStaysLow hLow)
  have hLater := timeoutToCome_cpuTurn hTurn hNone
  obtain ⟨rest, rfl⟩ := cpuTurn_setEnv hTurn
  exact ⟨hStep, State.hangs_iff.mpr ⟨hAsleep, step_irqStaysLow hLow hStep, hLater⟩⟩

/-- On an event's turn that resets nothing, nothing changes but the schedule. -/
theorem step_hangs_event {s : State} {e : EnvEvent} {rest : List Turn} (h : s.hangs = true)
    (hEnv : s.env = .environment e :: rest) (hReset : e ≠ .externalReset) (hPower : e ≠ .powerUp) :
    step s = .next (s.setEnv rest) ∧ (s.setEnv rest).hangs = true := by
  obtain ⟨hAsleep, hLow, hNone⟩ := State.hangs_iff.mp h
  rw [hEnv] at hNone
  obtain ⟨hLater, hNotDue⟩ := timeoutToCome_event hNone hReset hPower
  obtain ⟨hIrq, -, hStaysLow⟩ := State.irqStaysLow_cons hEnv hLow
  obtain ⟨level, hEvent⟩ := applyEvent_of_no_reset (s := s.setEnv rest) hReset hPower hNotDue
  have hStep : step s = .next ((s.setEnv rest).setIrq level) := by rw [step_of_environment hEnv, hEvent]
  have hLevel : level = s.irq :=
    (State.irq_of_irqStaysLow (step_irqStaysLow hLow hStep)).trans hIrq.symm
  rw [hLevel] at hStep
  exact ⟨hStep, State.hangs_iff.mpr ⟨hAsleep, hStaysLow, hLater⟩⟩

theorem step_hangs {s : State} (h : s.hangs = true)
    (hReset : s.env.head? ≠ some (.environment .externalReset))
    (hPower : s.env.head? ≠ some (.environment .powerUp)) :
    ∃ t, step s = .next t ∧ t.hangs = true ∧ t = { s with env := s.env.drop 1, wdt := t.wdt } := by
  rcases cpuTurn_or_event s with ⟨u, hTurn⟩ | ⟨e, rest, hEnv⟩
  · obtain ⟨hStep, hHangs⟩ := step_hangs_cpu h hTurn
    refine ⟨_, hStep, hHangs, ?_⟩
    rw [cpuTurn_env hTurn]
    rfl
  · rw [hEnv] at hReset hPower
    obtain ⟨hStep, hHangs⟩ :=
      step_hangs_event h hEnv (fun he => hReset (by rw [he]; rfl)) (fun he => hPower (by rw [he]; rfl))
    refine ⟨_, hStep, hHangs, ?_⟩
    rw [hEnv]
    rfl

/-! ## The watchdog's count (R172) -/

theorem exec_wdt {i : Instr} {s t : State} (h : exec i s = .next t) :
    t.wdt = if i = .clrwdt ∨ i = .sleep then 0 else s.wdt := by
  split
  · rename_i hClears
    rcases hClears with rfl | rfl
    · obtain rfl := Host.Outcome.next.inj h
      rfl
    · obtain rfl := Host.Outcome.next.inj h
      rfl
  · rename_i hKeeps
    obtain ⟨hClrwdt, hSleep⟩ := not_or.mp hKeeps
    exact (exec_hiddenFrame h).wdt hSleep hClrwdt

theorem interruptCheck_wdt {s t : State} (h : interruptCheck s = .next t) : t.wdt = s.wdt := by
  rcases interruptCheck_next h with rfl | ⟨-, -, -, hEntry⟩
  · rfl
  · obtain ⟨u, hPush, rfl⟩ := takeInterrupt_next hEntry
    exact (push_frame hPush).wdt

theorem step_wdt_of_decode {s u t : State} {i : Instr} (hTurn : CpuTurn s u) (hAwake : s.asleep = false)
    (hDecode : decode (s.progRead s.pc) = .ok i) (h : step s = .next t) :
    t.wdt = if i = .clrwdt ∨ i = .sleep then 0 else s.wdt + 1 := by
  rw [step_of_decode hTurn hAwake hDecode] at h
  obtain ⟨v, hExec, hCheck⟩ := andThen_eq_next.mp h
  rw [interruptCheck_wdt hCheck, exec_wdt hExec]
  obtain ⟨rest, rfl⟩ := cpuTurn_setEnv hTurn
  rfl

/-! ## The resets (R180) -/

theorem slot_empty : ∀ j, slot Ring.empty j = none := by decide

theorem freeByte_gie_cleared (n : Nat) : (Config.freeByte n &&& 0x7F#8).getLsbD 7 = false := by
  simp

/-- What an external reset is (log 11): the flags, W, FSR and RAM are kept. -/
theorem warmReset_anyReset (s : State) : WarmReset s (anyReset s) where
  pc := rfl
  irp := by simp [State.irp, BitVec.extractLsb'_and]
  rp := by simp [State.rp, BitVec.extractLsb'_and]
  pclath := rfl
  gie := freeByte_gie_cleared s.draws
  stack := rfl
  ring := fun j => ⟨rfl, slot_empty j⟩
  asleep := rfl
  wdt := rfl
  zero := by simp [State.zero]
  digitCarry := by simp [State.digitCarry]
  carry := by simp [State.carry]
  w := rfl
  fsr := rfl
  ram := fun _ => rfl
  code := rfl
  irq := rfl
  cfg := rfl
  powerUps := rfl
  deviceLog := rfl

/-- A watchdog reset is that reset with TO and PD written besides. -/
theorem warmReset_watchdogReset (s : State) : WarmReset s (watchdogReset s) := by
  have hReset := warmReset_anyReset s
  have hStatus : (watchdogReset s).status =
      (((anyReset s).setTimeOut false).setPowerDown (Config.freeBit (s.draws + 1))).status := rfl
  have hBanks : (watchdogReset s).status.extractLsb' 5 3 = (anyReset s).status.extractLsb' 5 3 := by
    rw [hStatus, State.setPowerDown_banks, State.setTimeOut_banks]
  obtain ⟨hIrp, hRp⟩ := irp_rp_of_banks_eq hBanks
  obtain ⟨hZero, hCarry, hDigitCarry, -⟩ := flagFrame_of_timeOut_powerDown (i := .nop) hStatus
  exact { hReset with
    irp := hIrp.trans hReset.irp
    rp := hRp.trans hReset.rp
    zero := (hZero rfl).trans hReset.zero
    digitCarry := (hDigitCarry rfl).trans hReset.digitCarry
    carry := (hCarry rfl).trans hReset.carry }

/-- The schedule before a reset bears on nothing the reset is said to do. -/
theorem warmReset_of_setEnv {s t : State} {rest : List Turn} (h : WarmReset (s.setEnv rest) t) :
    WarmReset s t :=
  { h with pc := h.pc }

theorem powerUpReset_banks (s : State) : (powerUpReset s).irp = 0#1 ∧ (powerUpReset s).rp = 0#2 := by
  simp [State.irp, State.rp, BitVec.extractLsb'_and, BitVec.extractLsb'_or]

theorem step_watchdogReset {s : State} {rest : List Turn}
    (hEnv : s.env = .environment .watchdogTimeout :: rest) (hEnabled : s.cfg.wdtEnabled = true) (hDue : 1 ≤ s.wdt) (hAwake : s.asleep = false) :
    step s = .next (watchdogReset (s.setEnv rest)) := by
  rw [step_of_environment hEnv, applyEvent, watchdogTimeout_awake (s.setEnv rest) hEnabled hDue hAwake]

theorem step_watchdogWakeUp {s : State} {rest : List Turn}
    (hEnv : s.env = .environment .watchdogTimeout :: rest) (hEnabled : s.cfg.wdtEnabled = true) (hDue : 1 ≤ s.wdt) (hAsleep : s.asleep = true) :
    step s = .next (((s.setEnv rest).setAsleep false).setTimeOut false) := by
  rw [step_of_environment hEnv, applyEvent, watchdogTimeout_asleep (s.setEnv rest) hEnabled hDue hAsleep]

/-! ## The request line (R161) -/

theorem irqOf_eq_true_iff (q : IrqSources) : irqOf q = true ↔
    (q.t0if = true ∧ q.t0ie = true) ∨ (q.intf = true ∧ q.inte = true) ∨
      (q.rbif = true ∧ q.rbie = true) ∨ (q.eeif = true ∧ q.eeie = true) := by
  simp [irqOf, or_assoc]

end Sys2Proof.Machine

namespace Sys2Proof.Claims

open Sys2Proof.Machine

/-- Settles O39: the step of each CPU turn, with the interrupt test written out. -/
theorem stepRunsTheDecodedInstruction : Obligations.StepRunsTheDecodedInstruction := by
  refine ⟨fun s u i hTurn hAwake hDecode => ?_, fun s u hTurn hAsleep => step_of_asleep hTurn hAsleep⟩
  rw [step_of_decode hTurn hAwake hDecode]
  cases exec i (fetched u) with
  | next t => exact interruptCheck_eq t
  | fault e => rfl
  | refused r => rfl

/-- Settles O42, from the wake-up test, the time-out that wakes, and what a hang keeps on each turn. -/
theorem sleepingCpuWakesByRequestOrTimeOut : Obligations.SleepingCpuWakesByRequestOrTimeOut := by
  refine ⟨fun s u hTurn hAsleep hIrq => ?_,
    fun _ _ hTurn hAsleep hIrq => step_of_asleep_low hTurn hAsleep hIrq,
    fun _ _ hEnv hAsleep hEnabled hDue => step_watchdogWakeUp hEnv hEnabled hDue hAsleep,
    fun _ hHangs hReset hPower => step_hangs hHangs hReset hPower, fun s k hHangs hQuiet => ?_⟩
  · rw [step_of_asleep hTurn hAsleep, hIrq]
    rfl
  · obtain ⟨hRun, -⟩ :=
      runSteps_of_cpuTurns (P := fun v => v.hangs = true) (fun _ _ => step_hangs_cpu) k s hHangs hQuiet
    exact hRun

/-- Settles O43, from what a time-out can do and who writes the count. -/
theorem watchdogTimeOutOnlyWhenEnabledAndDue : Obligations.WatchdogTimeOutOnlyWhenEnabledAndDue := by
  refine ⟨fun s rest hEnv => ⟨fun hNone => ?_, fun hEnabled hDue hAwake => ?_,
      fun hEnabled hDue hAsleep => ?_⟩,
    fun _ _ _ hExec => exec_wdt hExec,
    fun _ _ _ _ hTurn hAwake hDecode hStep => step_wdt_of_decode hTurn hAwake hDecode hStep,
    fun s u t hTurn hAsleep hStep => ?_⟩
  · rw [step_of_environment hEnv, applyEvent, watchdogTimeout_none (s.setEnv rest) hNone]
    rfl
  · exact ⟨_, step_watchdogReset hEnv hEnabled hDue hAwake, warmReset_of_setEnv (warmReset_watchdogReset _),
      watchdogReset_timeOut _⟩
  · exact ⟨_, step_watchdogWakeUp hEnv hEnabled hDue hAsleep, rfl, State.setTimeOut_timeOut _ _, rfl⟩
  · rw [step_of_asleep hTurn hAsleep] at hStep
    obtain rfl := Host.Outcome.next.inj hStep
    rfl

/-- Settles O44: what the three kinds of reset share, and what each does besides. -/
theorem resetKindsOfTheSpec : Obligations.ResetKindsOfTheSpec := by
  refine ⟨fun s rest hEnv => ?_, fun s rest hEnv hEnabled hDue hAwake => ?_, fun s rest hEnv => ?_⟩
  · obtain ⟨hTimeOut, hPowerDown⟩ := anyReset_keeps_timeOut_powerDown (s.setEnv rest)
    exact ⟨_, step_of_environment hEnv, warmReset_of_setEnv (warmReset_anyReset _), hTimeOut, hPowerDown, rfl⟩
  · exact ⟨_, step_watchdogReset hEnv hEnabled hDue hAwake, warmReset_of_setEnv (warmReset_watchdogReset _),
      watchdogReset_timeOut _, rfl⟩
  · obtain ⟨hTimeOut, hPowerDown⟩ := powerUpReset_timeOut_powerDown (s.setEnv rest)
    obtain ⟨hIrp, hRp⟩ := powerUpReset_banks (s.setEnv rest)
    exact ⟨_, step_of_environment hEnv, rfl, rfl, hIrp, hRp, hTimeOut, hPowerDown, rfl,
      freeByte_gie_cleared s.draws, rfl, rfl, slot_empty, rfl, rfl, rfl, rfl, rfl⟩

/-- Settles O45, from the effect of the two events that set the line. -/
theorem requestLineIsTheOrOfEnabledFlags : Obligations.RequestLineIsTheOrOfEnabledFlags :=
  ⟨fun _ _ _ hEnv => step_of_environment hEnv,
    fun _ _ q hEnv => ⟨irqOf q, step_of_environment hEnv, irqOf_eq_true_iff q⟩⟩

end Sys2Proof.Claims
end
